-- ==== Sys2Proof/Word.lean ====
section
/-! DEFINITION. The two word types PS2RX has (00_scope.md R7, R8): bytes, and the 4-bit registers of the decoder. -/

namespace Sys2Proof

/-- A byte: DATA_W = 8 (R7). Every value PS2RX stores or moves is one byte (R52). -/
abbrev Byte := BitVec 8

/-- A 4-bit register value: P_W = ONES_W = 4 (R7). -/
abbrev Nibble := BitVec 4

end Sys2Proof
end

