-- ==== Sys2Proof/Config.lean ====
section
/-! DEFINITION. What an integrator fixes at build time (R7, R34), the input ports sampled at one clock edge (R20, R161), and the
free values: constants without a body, of which nothing can be proved. -/

namespace Sys2Proof

/-- The open parameters of R7. They stand in the state as a field that no step writes (R34), so that a statement about every
state is a statement for every DEPTH, for both values of ASYNC and for every SYNC_STAGES. -/
structure Config where
  /-- DEPTH: how many bytes the FIFO holds. At least 1, and with ASYNC = 1 a power of two of at least 2. -/
  depth : Nat
  /-- ASYNC: true for the clock-domain-crossing FIFO. -/
  async : Bool
  /-- SYNC_STAGES: how many stages a synchroniser has (ASYNC = 1), at least 2. -/
  syncStages : Nat
  deriving DecidableEq, Repr

/-- Which clock rises in a step. With ASYNC = 0 every step is a rising edge of `clk` and this is not looked at. With ASYNC = 1
the two clocks have any frequency ratio and phase (R160), so each step says which of them rises. -/
inductive ClockEdge where
  | clk
  | clkR
  | both
  deriving DecidableEq, Repr, Inhabited

/-- The input ports at one clock edge (R20, and R161 for `rst_r`). -/
structure PortIn where
  edge : ClockEdge
  rst  : Bool
  rstR : Bool
  evt  : Bool
  dat  : Bool
  deq  : Bool
  deriving DecidableEq, Repr, Inhabited

/-- FREE VALUE (U2): what storage entry `i` holds after power-up, before anything is written to it (R25). -/
opaque Config.powerUpByte (i : Nat) : Byte

/-- FREE VALUE (U1): what `rd_data` shows while the FIFO is empty, for the draw numbered `n` (R147, R174). -/
opaque Config.emptyReadByte (n : Nat) : Byte

/-- FREE VALUE (U6): whether stage 1 of the `rq` synchroniser takes the new read pointer when both clocks rise at once (R165). -/
opaque Config.rqTakesNew (n : Nat) : Bool

/-- FREE VALUE (U6): whether stage 1 of the `wq` synchroniser takes the new write pointer when both clocks rise at once (R165). -/
opaque Config.wqTakesNew (n : Nat) : Bool

/-- FREE VALUE (U8, R213): the input the environment gives in a step for which no stimulus is listed. -/
opaque Config.envInput (n : Nat) : PortIn

end Sys2Proof
end

