-- ==== Sys2Proof/Machine/State.lean ====
section
/-! DEFINITION. The state of PS2RX as plain data: every register 10_state.md and 42_fifo_async.md name, the storage, the build
parameters, the pending stimulus (R82), the signals of the current cycle (R20, R130) and the trace (R181, R212). -/

namespace Sys2Proof.Machine

/-- One listed piece of stimulus. -/
inductive Pending where
  /-- One clock cycle with these input ports (R82). -/
  | cycle (i : PortIn)
  /-- BLOCKING_DEQ: DEQ cycles until the cycle with `rd_valid` = 1, that one included (R83, R144). -/
  | blockingDeq
  deriving DecidableEq, Repr

/-- The decoder outcome of a cycle, with what R181 says it records. -/
inductive DecOutcome where
  | none
  | idleNoise
  /-- Records the new p. -/
  | absorb (p : Nibble)
  /-- Records the discarded acc. -/
  | parityErr (acc : Byte)
  /-- Records the discarded acc. -/
  | stopErr (acc : Byte)
  /-- Records pushv. -/
  | frameOk (pushv : Byte)
  /-- Records the p found. -/
  | recover (p : Nibble)
  deriving DecidableEq, Repr

/-- The FIFO producer outcome of a cycle (R181). -/
inductive ProdOutcome where
  | none
  /-- Records pushv. -/
  | accept (pushv : Byte)
  /-- Records the dropped byte. -/
  | drop (pushv : Byte)
  deriving DecidableEq, Repr

/-- The FIFO consumer outcome of a cycle (R181). -/
inductive ConsOutcome where
  | none
  /-- Records rd_data. -/
  | hit (rdData : Byte)
  | miss
  deriving DecidableEq, Repr

/-- The signals of the cycle being computed: the sampled inputs, the decoder's request to the FIFO (R130), the read port
(R131), and the outcome labels (R181). They carry nothing from one cycle to the next: a step sets them before it reads them. -/
structure Signals where
  inp     : PortIn
  push    : Bool
  pushv   : Byte
  rdValid : Bool
  rdData  : Byte
  dec     : DecOutcome
  prod    : ProdOutcome
  cons    : ConsOutcome
  deriving DecidableEq, Repr

/-- One entry of the trace: the inputs of a cycle, the outputs it showed (R32, R212) and its outcome labels (R181). -/
structure CycleRecord where
  inp     : PortIn
  ack     : Bool
  rdValid : Bool
  rdData  : Byte
  empty   : Bool
  full    : Bool
  count   : Nat
  dropCnt : Byte
  dec     : DecOutcome
  prod    : ProdOutcome
  cons    : ConsOutcome
  deriving DecidableEq, Repr

/-- ASYNC = 1: where a clock domain stands in a joint reset (R178), as the samples of its own reset at its own clock show it. -/
inductive DomainReset where
  /-- Not in reset: no joint reset is in progress, or this domain has been released from the one in progress. -/
  | running
  /-- The other domain's reset has begun, and this domain's clock has not risen since. -/
  | pending
  /-- In reset for this many edges of its own clock. -/
  | held (edges : Nat)
  deriving DecidableEq, Repr

/-- The FIFO storage (R25): the entries written so far, as (entry number, byte), entry numbers strictly rising. An entry not
listed has not been written and has no value of its own here; reading one gives the free value of U2. -/
abbrev Memory := List Host.Cell

/-- The machine. -/
structure State where
  /-- The build parameters (R7, R34); no step writes them. -/
  cfg     : Config
  /-- The bit position, 4 bits (R21). -/
  p       : Nibble
  /-- The byte under construction, 8 bits (R22). -/
  acc     : Byte
  /-- The running count of 1-bits, 4 bits (R23). -/
  ones    : Nibble
  /-- The event acknowledge, 1 bit (R24). -/
  ack     : Bool
  /-- The FIFO storage, DEPTH bytes (R25, R50). -/
  mem     : Memory
  /-- ASYNC = 0: the read index, PTR_W bits (R26). -/
  head    : Nat
  /-- ASYNC = 0: the write index, PTR_W bits (R27). -/
  tail    : Nat
  /-- ASYNC = 0: the number of bytes held, CNT_W bits (R28). -/
  count   : Nat
  /-- The saturating drop counter, 8 bits (R29). -/
  dropCnt : Byte
  /-- ASYNC = 1: the binary write pointer, AW+1 bits (R162). -/
  wbin    : Nat
  /-- ASYNC = 1: the write pointer's gray code, AW+1 bits (R162). -/
  wgray   : Nat
  /-- ASYNC = 1: the read pointer's gray code on its way into `clk`, stage 1 first, SYNC_STAGES entries (R162). -/
  rq      : List Nat
  /-- ASYNC = 1: the binary read pointer, AW+1 bits (R163). -/
  rbin    : Nat
  /-- ASYNC = 1: the read pointer's gray code, AW+1 bits (R163). -/
  rgray   : Nat
  /-- ASYNC = 1: the write pointer's gray code on its way into `clk_r`, stage 1 first, SYNC_STAGES entries (R163). -/
  wq      : List Nat
  /-- ASYNC = 1, the model's own: where the write domain stands in a joint reset (R178). -/
  wReset  : DomainReset
  /-- ASYNC = 1, the model's own: where the read domain stands in a joint reset (R178). -/
  rReset  : DomainReset
  /-- The listed stimulus still to come, next first (R82, R212). -/
  inputs  : List Pending
  /-- The model's own: the number of the next draw of a free value. -/
  draws   : Nat
  /-- The signals of the cycle being computed. -/
  sig     : Signals
  /-- The record of every cycle so far, newest first (R181, R212). -/
  trace   : List CycleRecord
  deriving DecidableEq, Repr

/-- Why the machine stops with a fault. -/
inductive Fault where
  /-- Raised by an accepted enqueue or a dequeue hit whose index is not below DEPTH: the spec has no such entry (R25, R50). No
  state with legal pointers raises it. Safe: the run stops. -/
  | noSuchEntry (index : Nat)
  deriving DecidableEq, Repr

/-- Why a step has no meaning. -/
inductive Refusal where
  /-- Raised by exec's arm of an operation that has no meaning yet. Safe: the run stops. -/
  | notModelled (mnemonic : String)
  /-- Raised by FIFO_IMPOSSIBLE, which "a model refuses" (R132, U4). Safe: the run stops. -/
  | fullAndEmpty
  /-- Raised with ASYNC = 1 by a domain whose clock rises without its reset while the other domain is, or is put, in a reset that
  this domain has not joined, or while the other domain has not joined this domain's: "A reset of one domain alone is not
  defined. A model refuses it" (R178, U5). Safe: the run stops. -/
  | resetOfOneDomain
  /-- Raised with ASYNC = 1 by a domain whose clock rises without its reset after fewer than SYNC_STAGES + 1 of its own edges in
  reset (R178, U5). Safe: the run stops. -/
  | resetTooShort
  /-- Raised by a step whose operation word is no operation. No step forms such a word. Safe: the run stops. -/
  | noOperation
  deriving DecidableEq, Repr

/-- The signals between cycles: nothing requested, nothing delivered. -/
def Signals.quiet : Signals where
  inp := ⟨.clk, false, false, false, false, false⟩
  push := false
  pushv := 0
  rdValid := false
  rdData := 0
  dec := .none
  prod := .none
  cons := .none

/-- The machine after reset with the given build parameters: R37, and R162 and R163 for ASYNC = 1. -/
def State.resetWith (cfg : Config) : State where
  cfg := cfg
  p := 0
  acc := 0
  ones := 0
  ack := false
  mem := []
  head := 0
  tail := 0
  count := 0
  dropCnt := 0
  wbin := 0
  wgray := 0
  rq := List.replicate cfg.syncStages 0
  rbin := 0
  rgray := 0
  wq := List.replicate cfg.syncStages 0
  wReset := .running
  rReset := .running
  inputs := []
  draws := 0
  sig := .quiet
  trace := []

/-- The machine right after reset (R37), with DEPTH = 4 as the spec's test vectors have it, ASYNC = 0 and SYNC_STAGES = 2, the
defaults of R7 (log entry 1). -/
def State.reset : State := .resetWith { depth := 4, async := false, syncStages := 2 }

end Sys2Proof.Machine
end

