-- ==== Sys2Proof/Machine/Ops.lean ====
section
/-! DEFINITION. The named operations over storage, pointers and registers that the meanings share. PS2RX takes no exception and
returns from none (R180, R188, R190): the nearest thing is the event handshake (R184, R189), here `State.handshake`. -/

namespace Sys2Proof.Machine

/-! ### Outcomes -/

/-- The next state. -/
abbrev Result := Host.Outcome State Fault Refusal

/-- Goes on with a next state; a fault or a refusal stops. -/
def andThen (r : Result) (k : State → Result) : Result :=
  match r with
  | .next s => k s
  | .fault f => .fault f
  | .refused e => .refused e

/-! ### Arithmetic (R8, R164) -/

/-- `popcount(v)` (R8). -/
def popcount (v : Byte) : Nat := ((List.range 8).filter (fun i => v.getLsbD i)).length

/-- `sat_inc_8(v)` (R8). -/
def satInc8 (v : Byte) : Byte := if v = 255#8 then v else v + 1

/-- The odd parity bit a sender must send for payload `v`: `par(v) = 1 - (popcount(v) mod 2)` (R71). -/
def par (v : Byte) : Bool := popcount v % 2 == 0

/-- `ceil(log2(n))`: the least `k` with `n ≤ 2^k` (R7). -/
def ceilLog2 (n : Nat) : Nat := ((List.range (n + 1)).find? (fun k => n ≤ 2 ^ k)).getD n

/-- PTR_W (R7). -/
def ptrW (depth : Nat) : Nat := max 1 (ceilLog2 depth)

/-- CNT_W (R7). -/
def cntW (depth : Nat) : Nat := ceilLog2 (depth + 1)

/-- AW: with ASYNC = 1, DEPTH = 2^AW (R160). -/
def addrW (depth : Nat) : Nat := ceilLog2 depth

/-- `2^(AW+1)`: the pointers of ASYNC = 1 count modulo this (R160). -/
def ptrMod (depth : Nat) : Nat := 2 ^ (addrW depth + 1)

/-- `(x + 1) mod DEPTH` (R141). -/
def advance (depth x : Nat) : Nat := (x + 1) % depth

/-- `(a - b) mod 2^(AW+1)` for two pointers (R166, R167). -/
def ptrDiff (depth a b : Nat) : Nat := (a + ptrMod depth - b) % ptrMod depth

/-- `gray(b) = b ^ (b >> 1)` (R164). -/
def gray (b : Nat) : Nat := b ^^^ (b >>> 1)

/-- The low `n` bits of `ungray(g)`, where `above` is the bit of the result at position `n` (R164). -/
def ungrayBelow (g : Nat) : Nat → Bool → Nat
  | 0, _ => 0
  | n + 1, above =>
    let b := above ^^ g.testBit n
    (if b then 2 ^ n else 0) + ungrayBelow g n b

/-- `ungray(g)` of an AW+1-bit value: `b[AW] = g[AW]` and `b[i] = b[i+1] ^ g[i]` below (R164). -/
def ungray (depth g : Nat) : Nat := ungrayBelow g (addrW depth + 1) false

/-! ### Storage (R25, R50, R53, R54) -/

/-- The byte written to entry `a`, if one was. -/
def Memory.lookup : Memory → Nat → Option Byte
  | [], _ => none
  | (b, v) :: m, a => if a = b then some v else Memory.lookup m a

/-- Entry `a` holds `v` from now on; the list stays in rising order. -/
def Memory.write : Memory → Nat → Byte → Memory
  | [], a, v => [(a, v)]
  | (b, w) :: m, a, v =>
    if a < b then (a, v) :: (b, w) :: m
    else if a = b then (a, v) :: m
    else (b, w) :: Memory.write m a v

/-- The canonical form: entry numbers strictly rising. An unlisted entry has no value, so no listed entry equals one. -/
abbrev Memory.wf (m : Memory) : Prop := m.Pairwise (fun x y => x.1 < y.1)

/-- `MemRead(i)` (R9): the byte last written to entry `i`, or the free value of U2 if none was. -/
def State.memRead (s : State) (i : Nat) : Byte := (Memory.lookup s.mem i).getD (Config.powerUpByte i)

/-- `MemWrite(i, v)` (R9). -/
def State.memWrite (s : State) (i : Nat) (v : Byte) : State := { s with mem := Memory.write s.mem i v }

/-- The storage has the entries 0..DEPTH-1 and no other (R25): an access beyond them is a fault. -/
def guardEntry (i : Nat) (s : State) : Result :=
  if i < s.cfg.depth then .next s else .fault (.noSuchEntry i)

/-! ### The decoder's registers and its request (R21 to R24, R130, R184) -/

/-- The event handshake of a cycle without reset: `ack <- evt` (R184). -/
def State.handshake (s : State) : State := { s with ack := s.sig.inp.evt }

/-- The writes of a decoder operation that pushes nothing, with its outcome label (R100, R181). -/
def State.setDecoder (s : State) (p : Nibble) (acc : Byte) (ones : Nibble) (out : DecOutcome) : State :=
  { s with p := p, acc := acc, ones := ones, sig := { s.sig with push := false, dec := out } }

/-- `push = 1; pushv = v` (R116). -/
def State.request (s : State) (v : Byte) : State :=
  { s with sig := { s.sig with push := true, pushv := v } }

/-- Back to the idle state of the decoder: `p <- 0; acc <- 0x00; ones <- 0` (R114 to R118). -/
def State.resync (s : State) (out : DecOutcome) : State := s.setDecoder 0 0 0 out

/-- The data slots (R103): slot `k + 1` takes data bit `k`. -/
def State.absorbData (s : State) (k : Nat) (dat : Bool) : State :=
  s.setDecoder (BitVec.ofNat 4 (k + 2))
    (s.acc ||| ((BitVec.ofBool dat).setWidth 8 <<< k))
    (s.ones + (BitVec.ofBool dat).setWidth 4)
    (.absorb (BitVec.ofNat 4 (k + 2)))

/-! ### Outcome codes (R181) -/

/-- The code of a decoder outcome. -/
def decCode : DecOutcome → Nat
  | .none => 0
  | .idleNoise => 1
  | .absorb _ => 2
  | .parityErr _ => 3
  | .stopErr _ => 4
  | .frameOk _ => 5
  | .recover _ => 6

/-- The code of a producer outcome. -/
def prodCode : ProdOutcome → Nat
  | .none => 0
  | .accept _ => 1
  | .drop _ => 2

/-- The code of a consumer outcome. -/
def consCode : ConsOutcome → Nat
  | .none => 0
  | .hit _ => 1
  | .miss => 2

/-! ### The FIFO's registers, ASYNC = 0 (R26 to R29, R141 to R143) -/

/-- An accepted enqueue: `MemWrite(tail, pushv); tail <- (tail + 1) mod DEPTH` (R134). -/
def State.acceptSync (s : State) : State :=
  { s with
    mem := Memory.write s.mem s.tail s.sig.pushv
    tail := advance s.cfg.depth s.tail
    sig := { s.sig with prod := .accept s.sig.pushv } }

/-- A dropped enqueue: `drop_cnt <- sat_inc_8(drop_cnt)` (R135, R143, R171). -/
def State.dropByte (s : State) : State :=
  { s with dropCnt := satInc8 s.dropCnt, sig := { s.sig with prod := .drop s.sig.pushv } }

/-- No enqueue in this cycle (R181). -/
def State.noEnqueue (s : State) : State := { s with sig := { s.sig with prod := .none } }

/-- `count <- count + acc_ok - hit` (R142), a register of CNT_W bits. -/
def State.updateCount (s : State) (accOk hit : Bool) : State :=
  { s with count := (s.count + 2 ^ cntW s.cfg.depth + accOk.toNat - hit.toNat) % 2 ^ cntW s.cfg.depth }

/-! ### The FIFO's registers, ASYNC = 1 (R160 to R173) -/

/-- A synchroniser takes `x` into stage 1 and moves each stage on (R165). -/
def shiftIn (x : Nat) (q : List Nat) : List Nat := (x :: q).dropLast

/-- What a synchroniser shows: its last stage (R166, R167). -/
def lastStage (q : List Nat) : Nat := q.getLastD 0

/-- On a rising edge of `clk`: `rq[1] <- rgray`, `rq[i] <- rq[i-1]` (R165). -/
def State.shiftRq (s : State) : State := { s with rq := shiftIn s.rgray s.rq }

/-- On a rising edge of `clk_r`: `wq[1] <- wgray`, `wq[i] <- wq[i-1]` (R165). -/
def State.shiftWq (s : State) : State := { s with wq := shiftIn s.wgray s.wq }

/-- The storage entry the write pointer names: `wbin[AW-1:0]` (R170). -/
def State.writeIndex (s : State) : Nat := s.wbin % 2 ^ addrW s.cfg.depth

/-- The storage entry the read pointer names: `rbin[AW-1:0]` (R167). -/
def State.readIndex (s : State) : Nat := s.rbin % 2 ^ addrW s.cfg.depth

/-- An accepted enqueue: `MemWrite(wbin[AW-1:0], pushv); wbin <- wbin + 1; wgray <- gray(wbin + 1)` (R170). -/
def State.acceptAsync (s : State) : State :=
  { s with
    mem := Memory.write s.mem s.writeIndex s.sig.pushv
    wbin := (s.wbin + 1) % ptrMod s.cfg.depth
    wgray := gray ((s.wbin + 1) % ptrMod s.cfg.depth)
    sig := { s.sig with prod := .accept s.sig.pushv } }

/-- The read pointer moves on: `rbin <- rbin + 1; rgray <- gray(rbin + 1)` (R173). -/
def State.advanceRead (s : State) : State :=
  { s with
    rbin := (s.rbin + 1) % ptrMod s.cfg.depth
    rgray := gray ((s.rbin + 1) % ptrMod s.cfg.depth) }

/-- Stage 1 of a synchroniser holds `x`. -/
def setStage1 (x : Nat) : List Nat → List Nat
  | [] => []
  | _ :: q => x :: q

/-! ### Reset (R37, R162, R163, R178, R201) -/

/-- Whether `clk` rises. -/
def risesClk : ClockEdge → Bool
  | .clk | .both => true
  | .clkR => false

/-- Whether `clk_r` rises. -/
def risesClkR : ClockEdge → Bool
  | .clkR | .both => true
  | .clk => false

/-- The registers of R37 that both variants have: the decoder, the handshake and the drop counter. -/
def State.resetDecoder (s : State) : State :=
  { s with p := 0, acc := 0, ones := 0, ack := false, dropCnt := 0 }

/-- The FIFO registers of R37 (ASYNC = 0). -/
def State.resetSyncFifo (s : State) : State := { s with head := 0, tail := 0, count := 0 }

/-- The write domain's pointer and synchroniser (R162). -/
def State.resetWriteSide (s : State) : State :=
  { s with wbin := 0, wgray := 0, rq := List.replicate s.cfg.syncStages 0 }

/-- The read domain's pointer and synchroniser (R163). -/
def State.resetReadSide (s : State) : State :=
  { s with rbin := 0, rgray := 0, wq := List.replicate s.cfg.syncStages 0 }

/-- The write domain takes a reset edge: `clk` rises with `rst` = 1 (R161, R200). -/
def State.writeResets (s : State) : Bool := risesClk s.sig.inp.edge && s.sig.inp.rst

/-- The read domain takes a reset edge: `clk_r` rises with `rst_r` = 1 (R160, R200). -/
def State.readResets (s : State) : Bool := risesClkR s.sig.inp.edge && s.sig.inp.rstR

/-- The write domain takes an edge without reset, a "non-reset `clk` cycle" (R168). -/
def State.writeRuns (s : State) : Bool := risesClk s.sig.inp.edge && !s.sig.inp.rst

/-- The read domain takes an edge without reset, a "non-reset `clk_r` cycle" (R168). -/
def State.readRuns (s : State) : Bool := risesClkR s.sig.inp.edge && !s.sig.inp.rstR

/-- Why a domain that stands at `own` may not take an edge without reset, if it may not (R178, U5). `other` is where the other
domain stands before the edge, `otherResets` whether it takes a reset edge at the same time. -/
def runRefusal (stages : Nat) (own other : DomainReset) (otherResets : Bool) : Option Refusal :=
  match own, other with
  | .pending, _ => some .resetOfOneDomain
  | _, .pending => some .resetOfOneDomain
  | .held n, .running => if otherResets then some .resetOfOneDomain else if n ≤ stages then some .resetTooShort else none
  | .held n, .held _ => if n ≤ stages then some .resetTooShort else none
  | .running, .running => if otherResets then some .resetOfOneDomain else none
  | .running, .held _ => none

/-- Why the edge is refused, if it is: the write domain's reason first (R178, U5). -/
def State.resetRefusal (s : State) : Option Refusal :=
  (if s.writeRuns then runRefusal s.cfg.syncStages s.wReset s.rReset s.readResets else none).or
    (if s.readRuns then runRefusal s.cfg.syncStages s.rReset s.wReset s.writeResets else none)

/-- Where a domain that stands at `own` stands after an edge, by whether it takes a reset edge, takes one without reset, or takes
none while the other domain takes a reset edge (R178). -/
def resetAfter (own other : DomainReset) (resets runs otherResets : Bool) : DomainReset :=
  if resets then
    match own with
    | .held n => .held (n + 1)
    | _ => .held 1
  else if runs then .running
  else if otherResets && own == .running && other == .running then .pending
  else own

/-- The two domains after an edge (R178). -/
def State.trackReset (s : State) : State :=
  { s with
    wReset := resetAfter s.wReset s.rReset s.writeResets s.writeRuns s.readResets
    rReset := resetAfter s.rReset s.wReset s.readResets s.readRuns s.writeResets }

/-- U6: when both clocks rise at once, stage 1 of the synchroniser of a domain that is not in reset samples a pointer that may be
changing, and takes the old or the new value, which of the two is free (R165). `old` is the state before the edge. -/
def State.resolveStage1 (s old : State) : State :=
  { s with
    rq :=
      if old.writeRuns && risesClkR old.sig.inp.edge then
        setStage1 (if Config.rqTakesNew s.draws then s.rgray else old.rgray) s.rq
      else s.rq
    wq :=
      if old.readRuns && risesClk old.sig.inp.edge then
        setStage1 (if Config.wqTakesNew s.draws then s.wgray else old.wgray) s.wq
      else s.wq }

/-- A reset edge of the write domain, and with ASYNC = 0 that part of any: no step, no push, no enqueue (R201), and its registers
but for the FIFO's at their reset values (R37, R162). -/
def State.resetProducer (s : State) : State :=
  { s with sig := { s.sig with push := false, dec := .none, prod := .none } }.resetDecoder

end Sys2Proof.Machine
end

