-- ==== Sys2Proof/Machine/Flags.lean ====
section
/-! DEFINITION. The status flags `full` and `empty`, each side's view of them with ASYNC = 1, and the output ports (R32, R33,
R166, R167). Flags have no storage of their own: each is computed from the registers. -/

namespace Sys2Proof.Machine

/-! ### ASYNC = 0 -/

/-- F: `count == DEPTH` (R76). -/
def State.fullSync (s : State) : Bool := s.count == s.cfg.depth

/-- E: `count == 0` (R76). -/
def State.emptySync (s : State) : Bool := s.count == 0

/-- `rd_data` (R32): the head byte while the FIFO holds one, else the free value of U1 (R147). -/
def State.rdDataSync (s : State) : Byte :=
  if s.emptySync then Config.emptyReadByte s.draws else s.memRead s.head

/-! ### ASYNC = 1 -/

/-- `rseen` (R166): the read pointer as the write side sees it. -/
def State.rseen (s : State) : Nat := ungray s.cfg.depth (lastStage s.rq)

/-- `wseen` (R167): the write pointer as the read side sees it. -/
def State.wseen (s : State) : Nat := ungray s.cfg.depth (lastStage s.wq)

/-- `count_w` (R166). -/
def State.countW (s : State) : Nat := ptrDiff s.cfg.depth s.wbin s.rseen

/-- `count_r` (R167). -/
def State.countR (s : State) : Nat := ptrDiff s.cfg.depth s.wseen s.rbin

/-- `F_w` (R166). -/
def State.fullW (s : State) : Bool := s.countW == s.cfg.depth

/-- `E_r` (R167). -/
def State.emptyR (s : State) : Bool := s.countR == 0

/-- `rd_data` (R167): the byte at the read pointer while the read side sees one, else the free value of U1. -/
def State.rdDataAsync (s : State) : Byte :=
  if s.emptyR then Config.emptyReadByte s.draws else s.memRead s.readIndex

/-! ### The output ports -/

/-- The port `empty` (R32, R167). -/
def State.emptyPort (s : State) : Bool := if s.cfg.async then s.emptyR else s.emptySync

/-- The port `full`, with ASYNC = 1 `full_w` (R32, R166). -/
def State.fullPort (s : State) : Bool := if s.cfg.async then s.fullW else s.fullSync

/-- The port `count`, with ASYNC = 1 `count_r` (R32, R167). -/
def State.countPort (s : State) : Nat := if s.cfg.async then s.countR else s.count

/-- The port `rd_data` (R32, R167). -/
def State.rdDataPort (s : State) : Byte := if s.cfg.async then s.rdDataAsync else s.rdDataSync

/-! ### The read port of a cycle, as a FIFO operation drives it -/

/-- No dequeue in this cycle: `rd_valid = 0`, `rd_data` shows `v`. -/
def State.portIdle (s : State) (v : Byte) : State :=
  { s with sig := { s.sig with rdValid := false, rdData := v, cons := .none } }

/-- A dequeue hit: `rd_valid = 1`, `rd_data` is the byte removed (R131). -/
def State.portHit (s : State) (v : Byte) : State :=
  { s with sig := { s.sig with rdValid := true, rdData := v, cons := .hit v } }

/-- A dequeue miss: `rd_valid = 0`, `rd_data` is unspecified (R131, U1). -/
def State.portMiss (s : State) : State :=
  { s with sig := { s.sig with rdValid := false, rdData := Config.emptyReadByte s.draws, cons := .miss } }

/-- A dequeue hit on entry `head`, which then advances: `head <- (head + 1) mod DEPTH` (R136). -/
def State.hitSync (s : State) : State :=
  { s.portHit (s.memRead s.head) with head := advance s.cfg.depth s.head }

/-- A dequeue hit on the entry the read pointer names, which then advances (R173). -/
def State.hitAsync (s : State) : State := (s.portHit (s.memRead s.readIndex)).advanceRead

end Sys2Proof.Machine
end

