-- ==== Sys2Proof/Machine/AsyncFifo.lean ====
section
/-! DEFINITION. The FIFO's operations with ASYNC = 1 (42_fifo_async.md): the write domain's on an edge of `clk`, the read domain's
on an edge of `clk_r`. Each shifts its own domain's synchroniser (R165). -/

namespace Sys2Proof.Machine

/-- W_IDLE (R169): no enqueue; the synchroniser shifts. -/
def execWIdle (_fullW : Bool) (s : State) : Result := .next s.noEnqueue.shiftRq

/-- W_PUSH (R170): the byte is written at the write pointer, which advances. -/
def execWPush (s : State) : Result :=
  andThen (guardEntry s.writeIndex s) fun t => .next t.acceptAsync.shiftRq

/-- W_DROP (R171): the byte is dropped and counted. -/
def execWDrop (s : State) : Result := .next s.dropByte.shiftRq

/-- R_IDLE (R172): no dequeue; the synchroniser shifts. -/
def execRIdle (_emptyR : Bool) (s : State) : Result := .next (s.portIdle s.rdDataAsync).shiftWq

/-- R_POP (R173): the byte at the read pointer leaves, and the pointer advances. -/
def execRPop (s : State) : Result :=
  andThen (guardEntry s.readIndex s) fun t => .next t.hitAsync.shiftWq

/-- R_MISS (R174): nothing changes but the synchroniser. -/
def execRMiss (s : State) : Result := .next s.portMiss.shiftWq

end Sys2Proof.Machine
end

