-- ==== Sys2Proof/Machine/Decoder.lean ====
section
/-! DEFINITION. The decoder's operations (40_decoder.md). Each also makes the handshake's write `ack <- evt` of its cycle (R184),
and pushes nothing but for DEC_STOP_OK. A bit of the DEW that the operation does not read is an argument it ignores. -/

namespace Sys2Proof.Machine

/-- DEC_IDLE (R101): `p <- 0`, `acc` and `ones` unchanged. -/
def execDecIdle (_ones0 : Bool) (s : State) : Result :=
  .next (s.setDecoder 0 s.acc s.ones .idleNoise).handshake

/-- DEC_START (R102): `p <- 1`, `acc` and `ones` unchanged. -/
def execDecStart (_ones0 : Bool) (s : State) : Result :=
  .next (s.setDecoder 1 s.acc s.ones (.absorb 1)).handshake

/-- DEC_DATA0 (R103, R104). -/
def execDecData0 (_ones0 dat : Bool) (s : State) : Result := .next (s.absorbData 0 dat).handshake

/-- DEC_DATA1 (R103, R105). -/
def execDecData1 (_ones0 dat : Bool) (s : State) : Result := .next (s.absorbData 1 dat).handshake

/-- DEC_DATA2 (R103, R106). -/
def execDecData2 (_ones0 dat : Bool) (s : State) : Result := .next (s.absorbData 2 dat).handshake

/-- DEC_DATA3 (R103, R107). -/
def execDecData3 (_ones0 dat : Bool) (s : State) : Result := .next (s.absorbData 3 dat).handshake

/-- DEC_DATA4 (R103, R108). -/
def execDecData4 (_ones0 dat : Bool) (s : State) : Result := .next (s.absorbData 4 dat).handshake

/-- DEC_DATA5 (R103, R109). -/
def execDecData5 (_ones0 dat : Bool) (s : State) : Result := .next (s.absorbData 5 dat).handshake

/-- DEC_DATA6 (R103, R110). -/
def execDecData6 (_ones0 dat : Bool) (s : State) : Result := .next (s.absorbData 6 dat).handshake

/-- DEC_DATA7 (R103, R111). -/
def execDecData7 (_ones0 dat : Bool) (s : State) : Result := .next (s.absorbData 7 dat).handshake

/-- DEC_PAR_OK_E (R112): `p <- 10`, `acc` and `ones` unchanged. -/
def execDecParOkE (s : State) : Result := .next (s.setDecoder 10 s.acc s.ones (.absorb 10)).handshake

/-- DEC_PAR_OK_O (R113): `p <- 10`, `acc` and `ones` unchanged. -/
def execDecParOkO (s : State) : Result := .next (s.setDecoder 10 s.acc s.ones (.absorb 10)).handshake

/-- DEC_PAR_BAD_E (R114): the frame is discarded. -/
def execDecParBadE (s : State) : Result := .next (s.resync (.parityErr s.acc)).handshake

/-- DEC_PAR_BAD_O (R115): the frame is discarded. -/
def execDecParBadO (s : State) : Result := .next (s.resync (.parityErr s.acc)).handshake

/-- DEC_STOP_OK (R116): `push = 1; pushv = acc`, then back to idle. -/
def execDecStopOk (_ones0 : Bool) (s : State) : Result :=
  .next ((s.resync (.frameOk s.acc)).request s.acc).handshake

/-- DEC_STOP_BAD (R117, 90_conflicts.md C2): the frame is discarded, no byte is pushed. -/
def execDecStopBad (_ones0 : Bool) (s : State) : Result := .next (s.resync (.stopErr s.acc)).handshake

/-- DEC_RECOVER_B (R118): p = 11, back to idle, the sampled bit is discarded. -/
def execDecRecoverB (_ones0 _dat : Bool) (s : State) : Result := .next (s.resync (.recover s.p)).handshake

/-- DEC_RECOVER_C (R118): p = 12..15, back to idle, the sampled bit is discarded. -/
def execDecRecoverC (_plow : BitVec 2) (_ones0 _dat : Bool) (s : State) : Result :=
  .next (s.resync (.recover s.p)).handshake

/-- DEC_HOLD (R119): a cycle without a step, `p`, `acc` and `ones` unchanged. -/
def execDecHold (s : State) : Result := .next (s.setDecoder s.p s.acc s.ones .none).handshake

end Sys2Proof.Machine
end

