-- ==== Sys2Proof/Machine/Reset.lean ====
section
/-! DEFINITION. The reset operation (70_reset_and_hazards.md R200 to R202, 42_fifo_async.md R160 to R163, R178). -/

namespace Sys2Proof.Machine

/-- A reset edge with ASYNC = 0: every register takes its reset value and `mem` is not changed (R37, R201). -/
def State.resetAll (s : State) : State := (s.portIdle s.rdDataPort).resetProducer.resetSyncFifo

/-- A reset edge of the write domain (R162). -/
def State.resetWriteDomain (s : State) : State := s.resetProducer.resetWriteSide

/-- A reset edge of the read domain (R163). -/
def State.resetReadDomain (s : State) : State := (s.portIdle s.rdDataPort).resetReadSide

/-- RESET (R200, R201): the registers take their reset values, with ASYNC = 1 those of each domain whose clock rises with its
reset 1 (R160, R161); no decoder step takes place, nothing is pushed, `deq` is ignored and `rd_valid = 0`, while `rd_data` shows
what it showed before the edge. -/
def execReset (_evt _dat _deq : Bool) (s : State) : Result :=
  if s.cfg.async then
    let t := if s.writeResets then s.resetWriteDomain else s
    .next (if s.readResets then t.resetReadDomain else t)
  else .next s.resetAll

end Sys2Proof.Machine
end

