-- ==== Sys2Proof/Machine/SyncFifo.lean ====
section
/-! DEFINITION. The FIFO's operations with ASYNC = 0 (41_fifo.md). The byte to enqueue is the `pushv` the decoder gave in the same
cycle (R130). A flag bit of the FOW that the operation does not read is an argument it ignores. -/

namespace Sys2Proof.Machine

/-- FIFO_IMPOSSIBLE (R132, R79): "A model refuses it". -/
def execFifoImpossible (_enq _deq : Bool) (_s : State) : Result := .refused .fullAndEmpty

/-- FIFO_IDLE (R133): nothing changes. -/
def execFifoIdle (_full _empty : Bool) (s : State) : Result := .next (s.portIdle s.rdDataSync).noEnqueue

/-- FIFO_PUSH (R134): the byte is written at `tail`, which advances; `count <- count + 1`. -/
def execFifoPush (_empty : Bool) (s : State) : Result :=
  andThen (guardEntry s.tail s) fun t => .next ((t.portIdle t.rdDataSync).acceptSync.updateCount true false)

/-- FIFO_PUSH_DROP (R135): the byte is dropped and counted. -/
def execFifoPushDrop (_empty : Bool) (s : State) : Result := .next (s.portIdle s.rdDataSync).dropByte

/-- FIFO_POP (R136): the byte at `head` leaves; `count <- count - 1`. -/
def execFifoPop (_full : Bool) (s : State) : Result :=
  andThen (guardEntry s.head s) fun t => .next (t.hitSync.noEnqueue.updateCount false true)

/-- FIFO_POP_MISS (R137): nothing changes. -/
def execFifoPopMiss (_full : Bool) (s : State) : Result := .next s.portMiss.noEnqueue

/-- FIFO_PUSH_POP (R138): the byte at `head` leaves and the new byte is written at `tail`; `count` is unchanged. -/
def execFifoPushPop (s : State) : Result :=
  andThen (guardEntry s.head s) fun t =>
  andThen (guardEntry t.tail t) fun u => .next u.hitSync.acceptSync

/-- FIFO_PUSH_POPMISS (R139): the new byte is written at `tail`; `count <- 1`; there is no bypass. -/
def execFifoPushPopMiss (s : State) : Result :=
  andThen (guardEntry s.tail s) fun t => .next { t.portMiss.acceptSync with count := 1 }

/-- FIFO_DROP_POP (R140): the byte at `head` leaves and the new byte is dropped and counted; `count <- count - 1`. -/
def execFifoDropPop (s : State) : Result :=
  andThen (guardEntry s.head s) fun t => .next (t.hitSync.dropByte.updateCount false true)

end Sys2Proof.Machine
end

