-- ==== Sys2Proof/Syntax.lean ====
section
/-! DEFINITION. The operations of PS2RX, one constructor per row of spec/opcode_table.json. PS2RX has no instruction set; an
"operation" stands where an instruction set has an "instruction" (R2). A constructor's arguments are the bits its row leaves
open (the `x` of its pattern), the most significant first, under the names the operation word gives them (R74, R76, R168, R82). -/

namespace Sys2Proof

/-- One operation: one transition of the decoder, of the FIFO (ASYNC = 0), of one side of the FIFO (ASYNC = 1), or reset. -/
inductive Instr where
  /-- DEW `0000x1` (R101): the start slot saw 1. -/
  | decIdle (ones0 : Bool)
  /-- DEW `0000x0` (R102): the start slot saw 0. -/
  | decStart (ones0 : Bool)
  /-- DEW `0001xx` (R104): slot 1 takes d0. -/
  | decData0 (ones0 dat : Bool)
  /-- DEW `0010xx` (R105): slot 2 takes d1. -/
  | decData1 (ones0 dat : Bool)
  /-- DEW `0011xx` (R106): slot 3 takes d2. -/
  | decData2 (ones0 dat : Bool)
  /-- DEW `0100xx` (R107): slot 4 takes d3. -/
  | decData3 (ones0 dat : Bool)
  /-- DEW `0101xx` (R108): slot 5 takes d4. -/
  | decData4 (ones0 dat : Bool)
  /-- DEW `0110xx` (R109): slot 6 takes d5. -/
  | decData5 (ones0 dat : Bool)
  /-- DEW `0111xx` (R110): slot 7 takes d6. -/
  | decData6 (ones0 dat : Bool)
  /-- DEW `1000xx` (R111): slot 8 takes d7. -/
  | decData7 (ones0 dat : Bool)
  /-- DEW `100101` (R112): parity passes, ones even, bit 1. -/
  | decParOkE
  /-- DEW `100110` (R113): parity passes, ones odd, bit 0. -/
  | decParOkO
  /-- DEW `100100` (R114): parity fails, ones even, bit 0. -/
  | decParBadE
  /-- DEW `100111` (R115): parity fails, ones odd, bit 1. -/
  | decParBadO
  /-- DEW `1010x1` (R116): stop bit 1, the byte is pushed. -/
  | decStopOk (ones0 : Bool)
  /-- DEW `1010x0` (R117): stop bit 0, the frame is discarded. -/
  | decStopBad (ones0 : Bool)
  /-- DEW `1011xx` (R118): p = 11, recover to idle. -/
  | decRecoverB (ones0 dat : Bool)
  /-- DEW `11xxxx` (R118): p = 12 + plow, recover to idle. -/
  | decRecoverC (plow : BitVec 2) (ones0 dat : Bool)
  /-- No word is formed (R119): a cycle without a step. -/
  | decHold
  /-- FOW `xx11` (R132): full and empty at once. -/
  | fifoImpossible (enq deq : Bool)
  /-- FOW `00xx` (R133): neither side acts. -/
  | fifoIdle (full empty : Bool)
  /-- FOW `100x` (R134): an enqueue is accepted. -/
  | fifoPush (empty : Bool)
  /-- FOW `101x` (R135): an enqueue is dropped. -/
  | fifoPushDrop (empty : Bool)
  /-- FOW `01x0` (R136): a dequeue hits. -/
  | fifoPop (full : Bool)
  /-- FOW `01x1` (R137): a dequeue misses. -/
  | fifoPopMiss (full : Bool)
  /-- FOW `1100` (R138): accept and hit. -/
  | fifoPushPop
  /-- FOW `1101` (R139): accept and miss. -/
  | fifoPushPopMiss
  /-- FOW `1110` (R140): drop and hit. -/
  | fifoDropPop
  /-- FOW_W `0x` (R169): no enqueue in this `clk` cycle. -/
  | wIdle (fullW : Bool)
  /-- FOW_W `10` (R170): an enqueue is accepted. -/
  | wPush
  /-- FOW_W `11` (R171): an enqueue is dropped. -/
  | wDrop
  /-- FOW_R `0x` (R172): no dequeue in this `clk_r` cycle. -/
  | rIdle (emptyR : Bool)
  /-- FOW_R `10` (R173): a dequeue hits. -/
  | rPop
  /-- FOW_R `11` (R174): a dequeue misses. -/
  | rMiss
  /-- PIW `1xxx` (R200, R201): a reset cycle. -/
  | reset (evt dat deq : Bool)
  deriving DecidableEq, Repr

end Sys2Proof
end

