-- ==== Sys2Proof/Machine/Dispatch.lean ====
section
/-! DEFINITION. One arm per operation: its meaning. -/

namespace Sys2Proof.Machine

def exec (i : Instr) (s : State) : Host.Outcome State Fault Refusal :=
  match i with
  | .decIdle ones0 => Sys2Proof.Machine.execDecIdle ones0 s
  | .decStart ones0 => Sys2Proof.Machine.execDecStart ones0 s
  | .decData0 ones0 dat => Sys2Proof.Machine.execDecData0 ones0 dat s
  | .decData1 ones0 dat => Sys2Proof.Machine.execDecData1 ones0 dat s
  | .decData2 ones0 dat => Sys2Proof.Machine.execDecData2 ones0 dat s
  | .decData3 ones0 dat => Sys2Proof.Machine.execDecData3 ones0 dat s
  | .decData4 ones0 dat => Sys2Proof.Machine.execDecData4 ones0 dat s
  | .decData5 ones0 dat => Sys2Proof.Machine.execDecData5 ones0 dat s
  | .decData6 ones0 dat => Sys2Proof.Machine.execDecData6 ones0 dat s
  | .decData7 ones0 dat => Sys2Proof.Machine.execDecData7 ones0 dat s
  | .decParOkE => Sys2Proof.Machine.execDecParOkE s
  | .decParOkO => Sys2Proof.Machine.execDecParOkO s
  | .decParBadE => Sys2Proof.Machine.execDecParBadE s
  | .decParBadO => Sys2Proof.Machine.execDecParBadO s
  | .decStopOk ones0 => Sys2Proof.Machine.execDecStopOk ones0 s
  | .decStopBad ones0 => Sys2Proof.Machine.execDecStopBad ones0 s
  | .decRecoverB ones0 dat => Sys2Proof.Machine.execDecRecoverB ones0 dat s
  | .decRecoverC plow ones0 dat => Sys2Proof.Machine.execDecRecoverC plow ones0 dat s
  | .decHold => Sys2Proof.Machine.execDecHold s
  | .fifoImpossible enq deq => Sys2Proof.Machine.execFifoImpossible enq deq s
  | .fifoIdle full empty => Sys2Proof.Machine.execFifoIdle full empty s
  | .fifoPush empty => Sys2Proof.Machine.execFifoPush empty s
  | .fifoPushDrop empty => Sys2Proof.Machine.execFifoPushDrop empty s
  | .fifoPop full => Sys2Proof.Machine.execFifoPop full s
  | .fifoPopMiss full => Sys2Proof.Machine.execFifoPopMiss full s
  | .fifoPushPop => Sys2Proof.Machine.execFifoPushPop s
  | .fifoPushPopMiss => Sys2Proof.Machine.execFifoPushPopMiss s
  | .fifoDropPop => Sys2Proof.Machine.execFifoDropPop s
  | .wIdle fullW => Sys2Proof.Machine.execWIdle fullW s
  | .wPush => Sys2Proof.Machine.execWPush s
  | .wDrop => Sys2Proof.Machine.execWDrop s
  | .rIdle emptyR => Sys2Proof.Machine.execRIdle emptyR s
  | .rPop => Sys2Proof.Machine.execRPop s
  | .rMiss => Sys2Proof.Machine.execRMiss s
  | .reset evt dat deq => Sys2Proof.Machine.execReset evt dat deq s

end Sys2Proof.Machine
end

