-- ==== Sys2Proof/WellFormed.lean ====
section
/-! DEFINITION. Which operations are the reading of some operation word. Every DEW, FOW_W, FOW_R and RESET row admits all values
of its open bits (R75, R168, R82). In the FOW table the first matching row wins and row 1 takes every word with F = E = 1
(R77), so three rows do not reach all values of their open bits. -/

namespace Sys2Proof

/-- FIFO_IDLE with F = E = 1 would be the word `0011`, which row 1 of R77 takes. -/
def idleFlagsOk (full empty : Bool) : Bool := !(full && empty)

/-- FIFO_PUSH_DROP has F = 1, so E = 1 would be the word `1011`, which row 1 of R77 takes. -/
def dropFlagsOk (empty : Bool) : Bool := !empty

/-- FIFO_POP_MISS has E = 1, so F = 1 would be the word `0111`, which row 1 of R77 takes. -/
def missFlagsOk (full : Bool) : Bool := !full

/-- The operation is the reading of some operation word (R75, R77, R168, R82). -/
def WellFormed : Instr → Bool
  | .decIdle _ | .decStart _ => true
  | .decData0 _ _ | .decData1 _ _ | .decData2 _ _ | .decData3 _ _ => true
  | .decData4 _ _ | .decData5 _ _ | .decData6 _ _ | .decData7 _ _ => true
  | .decParOkE | .decParOkO | .decParBadE | .decParBadO => true
  | .decStopOk _ | .decStopBad _ => true
  | .decRecoverB _ _ | .decRecoverC _ _ _ | .decHold => true
  | .fifoImpossible _ _ => true
  | .fifoIdle full empty => idleFlagsOk full empty
  | .fifoPush _ => true
  | .fifoPushDrop empty => dropFlagsOk empty
  | .fifoPop _ => true
  | .fifoPopMiss full => missFlagsOk full
  | .fifoPushPop | .fifoPushPopMiss | .fifoDropPop => true
  | .wIdle _ | .wPush | .wDrop => true
  | .rIdle _ | .rPop | .rMiss => true
  | .reset _ _ _ => true

end Sys2Proof
end

