-- ==== Sys2Proof/Decode.lean ====
section
/-! DEFINITION. The five operation words of PS2RX, their decoder and their encoder (30_encoding.md R74 to R79, R82; R168). -/

namespace Sys2Proof

/-- Which operation word a row of the opcode table belongs to: its "format". Words of different formats are formed by different
parts of the block and share bit patterns, so a word is read together with its format. -/
inductive Format where
  /-- The Decoder Event Word, 6 bits (R74). -/
  | dew
  /-- The FIFO Operation Word of ASYNC = 0, 4 bits (R76). -/
  | fow
  /-- The write-domain word of ASYNC = 1, 2 bits (R168). -/
  | fowW
  /-- The read-domain word of ASYNC = 1, 2 bits (R168). -/
  | fowR
  /-- The Port Input Word, 4 bits (R82). -/
  | piw
  /-- No word at all: a cycle in which no DEW is formed (R74, R119). -/
  | noWord
  deriving DecidableEq, Repr

/-- Why a word is no operation. -/
inductive Reject where
  /-- A bit above the format's width is 1. -/
  | strayBits
  /-- A PIW with rst = 0 is a cycle that forms a DEW or an FOW, not an operation of its own (R38, R82). -/
  | notReset
  deriving DecidableEq, Repr

/-- The width of a format's word in bits (R74, R76, R168, R82). -/
def formatWidth : Format → Nat
  | .dew => 6
  | .fow => 4
  | .fowW => 2
  | .fowR => 2
  | .piw => 4
  | .noWord => 0

/-- The DEW decode table (R75), by slot number. -/
def decodeDew (w : Byte) : Instr :=
  let ones0 := w.getLsbD 1
  let dat := w.getLsbD 0
  match (w.extractLsb' 2 4).toNat with
  | 0 => if dat then .decIdle ones0 else .decStart ones0
  | 1 => .decData0 ones0 dat
  | 2 => .decData1 ones0 dat
  | 3 => .decData2 ones0 dat
  | 4 => .decData3 ones0 dat
  | 5 => .decData4 ones0 dat
  | 6 => .decData5 ones0 dat
  | 7 => .decData6 ones0 dat
  | 8 => .decData7 ones0 dat
  | 9 =>
    match ones0, dat with
    | false, true => .decParOkE
    | true, false => .decParOkO
    | false, false => .decParBadE
    | true, true => .decParBadO
  | 10 => if dat then .decStopOk ones0 else .decStopBad ones0
  | 11 => .decRecoverB ones0 dat
  | _ => .decRecoverC (w.extractLsb' 2 2) ones0 dat

/-- The FOW decode table (R77): the rows in their order, the first match wins. -/
def decodeFow (w : Byte) : Instr :=
  let enq := w.getLsbD 3
  let deq := w.getLsbD 2
  let full := w.getLsbD 1
  let empty := w.getLsbD 0
  if full && empty then .fifoImpossible enq deq
  else match enq, deq with
    | false, false => .fifoIdle full empty
    | true, false => if full then .fifoPushDrop empty else .fifoPush empty
    | false, true => if empty then .fifoPopMiss full else .fifoPop full
    | true, true => if full then .fifoDropPop else if empty then .fifoPushPopMiss else .fifoPushPop

/-- The FOW_W rows (R168). -/
def decodeFowW (w : Byte) : Instr :=
  match w.getLsbD 1, w.getLsbD 0 with
  | false, fullW => .wIdle fullW
  | true, false => .wPush
  | true, true => .wDrop

/-- The FOW_R rows (R168). -/
def decodeFowR (w : Byte) : Instr :=
  match w.getLsbD 1, w.getLsbD 0 with
  | false, emptyR => .rIdle emptyR
  | true, false => .rPop
  | true, true => .rMiss

/-- The decoder: total on every byte read in every format, rejecting by name. -/
def decode (f : Format) (w : Byte) : Except Reject Instr :=
  if 2 ^ formatWidth f ≤ w.toNat then .error .strayBits
  else match f with
    | .dew => .ok (decodeDew w)
    | .fow => .ok (decodeFow w)
    | .fowW => .ok (decodeFowW w)
    | .fowR => .ok (decodeFowR w)
    | .piw => if w.getLsbD 3 then .ok (.reset (w.getLsbD 2) (w.getLsbD 1) (w.getLsbD 0)) else .error .notReset
    | .noWord => .ok .decHold

/-- The format of an operation's word, the table's "format" column. -/
def formatOf : Instr → Format
  | .decIdle _ | .decStart _ => .dew
  | .decData0 _ _ | .decData1 _ _ | .decData2 _ _ | .decData3 _ _ => .dew
  | .decData4 _ _ | .decData5 _ _ | .decData6 _ _ | .decData7 _ _ => .dew
  | .decParOkE | .decParOkO | .decParBadE | .decParBadO => .dew
  | .decStopOk _ | .decStopBad _ => .dew
  | .decRecoverB _ _ | .decRecoverC _ _ _ => .dew
  | .decHold => .noWord
  | .fifoImpossible _ _ | .fifoIdle _ _ | .fifoPush _ | .fifoPushDrop _ => .fow
  | .fifoPop _ | .fifoPopMiss _ | .fifoPushPop | .fifoPushPopMiss | .fifoDropPop => .fow
  | .wIdle _ | .wPush | .wDrop => .fowW
  | .rIdle _ | .rPop | .rMiss => .fowR
  | .reset _ _ _ => .piw

/-- The DEW of slot `p` with `ones[0]` and the sampled bit (R74), in a byte. -/
def dewWord (p : Nibble) (ones0 dat : Bool) : Byte :=
  0#2 ++ p ++ BitVec.ofBool ones0 ++ BitVec.ofBool dat

/-- Four bits in a byte, the most significant first: an FOW (R76) or a PIW (R82). -/
def fourBits (b3 b2 b1 b0 : Bool) : Byte :=
  0#4 ++ BitVec.ofBool b3 ++ BitVec.ofBool b2 ++ BitVec.ofBool b1 ++ BitVec.ofBool b0

/-- Two bits in a byte, the most significant first: an FOW_W or an FOW_R (R168). -/
def twoBits (b1 b0 : Bool) : Byte := 0#6 ++ BitVec.ofBool b1 ++ BitVec.ofBool b0

/-- The encoder: an operation's word in its format, from the tables of R75, R77, R168 and R82. -/
def encode : Instr → Byte
  | .decIdle ones0 => dewWord 0 ones0 true
  | .decStart ones0 => dewWord 0 ones0 false
  | .decData0 ones0 dat => dewWord 1 ones0 dat
  | .decData1 ones0 dat => dewWord 2 ones0 dat
  | .decData2 ones0 dat => dewWord 3 ones0 dat
  | .decData3 ones0 dat => dewWord 4 ones0 dat
  | .decData4 ones0 dat => dewWord 5 ones0 dat
  | .decData5 ones0 dat => dewWord 6 ones0 dat
  | .decData6 ones0 dat => dewWord 7 ones0 dat
  | .decData7 ones0 dat => dewWord 8 ones0 dat
  | .decParOkE => dewWord 9 false true
  | .decParOkO => dewWord 9 true false
  | .decParBadE => dewWord 9 false false
  | .decParBadO => dewWord 9 true true
  | .decStopOk ones0 => dewWord 10 ones0 true
  | .decStopBad ones0 => dewWord 10 ones0 false
  | .decRecoverB ones0 dat => dewWord 11 ones0 dat
  | .decRecoverC plow ones0 dat => dewWord (3#2 ++ plow) ones0 dat
  | .decHold => 0
  | .fifoImpossible enq deq => fourBits enq deq true true
  | .fifoIdle full empty => fourBits false false full empty
  | .fifoPush empty => fourBits true false false empty
  | .fifoPushDrop empty => fourBits true false true empty
  | .fifoPop full => fourBits false true full false
  | .fifoPopMiss full => fourBits false true full true
  | .fifoPushPop => fourBits true true false false
  | .fifoPushPopMiss => fourBits true true false true
  | .fifoDropPop => fourBits true true true false
  | .wIdle fullW => twoBits false fullW
  | .wPush => twoBits true false
  | .wDrop => twoBits true true
  | .rIdle emptyR => twoBits false emptyR
  | .rPop => twoBits true false
  | .rMiss => twoBits true true
  | .reset evt dat deq => fourBits true evt dat deq

/-- DESIGN CHOICE (log entry 5): the number by which a table word longer than one byte names its format, in its second byte. -/
def formatTag : Format → Nat
  | .dew => 0
  | .fow => 1
  | .fowW => 2
  | .fowR => 3
  | .piw => 4
  | .noWord => 5

/-- The format a tag names. -/
def formatOfTag : Nat → Option Format
  | 0 => some .dew
  | 1 => some .fow
  | 2 => some .fowW
  | 3 => some .fowR
  | 4 => some .piw
  | 5 => some .noWord
  | _ => none

/-- DESIGN CHOICE (log entry 5): the format in which a table word of at most one byte is read when only its length is given. The
table's words of different formats share bit patterns, so the length is all there is to go by: no bits is the row without a
word, up to 2 bits is an FOW_W, up to 4 an FOW, and a whole byte a DEW, the word of the decoder and of 18 of the 35 rows. -/
def shortFormat (nbits : Nat) : Format :=
  if nbits = 0 then .noWord
  else if nbits ≤ 2 then .fowW
  else if nbits ≤ 4 then .fow
  else .dew

/-- The operation the decoder reads from a word numbered as spec/opcode_table.json numbers it: the low byte is the operation
word; its format is the one its length gives, or, in a word of more than 8 bits, the one its second byte names. -/
def decodeTableWord (nbits w : Nat) : Option Instr :=
  let format := if nbits ≤ 8 then (if w < 256 then some (shortFormat nbits) else none) else formatOfTag (w / 256)
  match format with
  | none => none
  | some f =>
    match decode f (BitVec.ofNat 8 (w % 256)) with
    | .ok i => some i
    | .error _ => none

/-- The two-byte table word of an operation: its word, and its format's tag in the second byte (log entry 5). -/
def tableWord (i : Instr) : Nat := formatTag (formatOf i) * 256 + (encode i).toNat

end Sys2Proof
end

