-- ==== Sys2Proof/Machine/Operands.lean ====
section
/-! DEFINITION. Where an operation's operands come from: the inputs sampled at a clock edge (R82, R205, R213) and the operation
words formed from them and the registers (R74, R76, R82, R168). -/

namespace Sys2Proof.Machine

/-- The input of a BLOCKING_DEQ cycle: DEQ, on both clocks (R82, R83). -/
def deqOnly : PortIn := ⟨.both, false, false, false, false, true⟩

/-- The input ports at the next edge: the next listed stimulus, or, where none is listed, whatever the environment gives: `evt`,
`dat`, `deq` and `rst` are free inputs (R213, U8). -/
def State.nextInput (s : State) : PortIn :=
  match s.inputs with
  | [] => Config.envInput s.draws
  | .cycle i :: _ => i
  | .blockingDeq :: _ => deqOnly

/-- The signals at the start of a cycle: the inputs sampled, nothing requested, nothing delivered, no outcome yet. -/
def State.sample (s : State) : State :=
  { s with
    sig :=
      { inp := s.nextInput
        push := false
        pushv := s.sig.pushv
        rdValid := false
        rdData := s.rdDataPort
        dec := .none
        prod := .none
        cons := .none } }

/-- `step = evt && !ack` in a cycle without reset (R184). -/
def State.takesStep (s : State) : Bool := s.sig.inp.evt && !s.ack

/-- The Decoder Event Word `{p, ones[0], dat}` (R74). -/
def State.dewOf (s : State) : Byte := dewWord s.p (s.ones.getLsbD 0) s.sig.inp.dat

/-- The FIFO Operation Word `{enq, deq, F, E}`, with `enq = push` (R76, R130). -/
def State.fowOf (s : State) : Byte := fourBits s.sig.push s.sig.inp.deq s.fullSync s.emptySync

/-- The write-domain word `{enq, F_w}` (R168). -/
def State.fowWOf (s : State) : Byte := twoBits s.sig.push s.fullW

/-- The read-domain word `{deq, E_r}` (R168). -/
def State.fowROf (s : State) : Byte := twoBits s.sig.inp.deq s.emptyR

/-- Whether a reset is sampled at the edge: `rst`, and with ASYNC = 1 the reset of a domain whose clock rises (R161, R200). -/
def State.samplesReset (s : State) : Bool := if s.cfg.async then s.writeResets || s.readResets else s.sig.inp.rst

/-- The Port Input Word `{rst, evt, dat, deq}` (R82). DESIGN CHOICE (log entry 15): with ASYNC = 1, for which R82 defines none, its
first bit is 1 at an edge at which a domain samples its reset. -/
def State.piwOf (s : State) : Byte := fourBits s.samplesReset s.sig.inp.evt s.sig.inp.dat s.sig.inp.deq

end Sys2Proof.Machine
end

