-- ==== Sys2Proof/Machine/Cycle.lean ====
section
/-! DEFINITION. One clock edge (10_state.md R38; R160, R165, R178 for ASYNC = 1): the operation words are formed, decoded and
executed, the decoder's before the FIFO's, and the cycle is recorded. -/

namespace Sys2Proof.Machine

/-- Decodes an operation word in its format and executes the operation. -/
def execWord (f : Format) (w : Byte) (s : State) : Result :=
  match Sys2Proof.decode f w with
  | .ok i => exec i s
  | .error _ => .refused .noOperation

/-- The decoder's operation of a cycle: the one the DEW selects in a step cycle (R100), DEC_HOLD in any other (R119). -/
def decoderPart (s : State) : Result :=
  if s.takesStep then execWord .dew s.dewOf s else execWord .noWord 0 s

/-- One edge of `clk` with ASYNC = 0 (R38). -/
def cycleSync (s : State) : Result :=
  if s.sig.inp.rst then execWord .piw s.piwOf s
  else andThen (decoderPart s) fun t => execWord .fow t.fowOf t

/-- The reset of the domains that take a reset edge (R160, R200). -/
def resetPart (s : State) : Result := if s.samplesReset then execWord .piw s.piwOf s else .next s

/-- The write domain in a non-reset `clk` cycle (R160, R168). -/
def writePart (s : State) : Result := andThen (decoderPart s) fun t => execWord .fowW t.fowWOf t

/-- The read domain in a non-reset `clk_r` cycle (R160, R168). -/
def readPart (s : State) : Result := execWord .fowR s.fowROf s

/-- The domains whose clocks rise (R160): each is reset or runs. When both rise at once each side uses the registers as they were
before the edge, and stage 1 of each synchroniser takes the old or the new pointer (R165, U6). -/
def clockDomains (s : State) : Result :=
  andThen (resetPart s) fun t =>
  andThen (if s.readRuns then readPart t else .next t) fun u =>
  andThen (if s.writeRuns then writePart u else .next u) fun v => .next (v.resolveStage1 s)

/-- One edge with ASYNC = 1. Each reset is sampled on its own clock (R161). `rst` and `rst_r` are asserted together, each for
SYNC_STAGES + 1 edges of its own clock (R178, U5). -/
def cycleAsync (s : State) : Result :=
  match s.resetRefusal with
  | some e => .refused e
  | none => clockDomains s.trackReset

/-- One clock edge, the inputs being sampled. -/
def cycle (s : State) : Result := if s.cfg.async then cycleAsync s else cycleSync s

/-- The stimulus still to come after a cycle: a listed cycle is used up; a BLOCKING_DEQ is used up by a hit (R83, R144). -/
def State.remaining (t : State) : List Pending :=
  match t.inputs with
  | [] => []
  | .cycle _ :: rest => rest
  | .blockingDeq :: rest => if t.sig.rdValid then rest else .blockingDeq :: rest

/-- The record of a cycle: the outputs it showed are those of `pre`, the state at its start, and its read port (R32, R201, R212);
the labels are those of its operations (R181). -/
def cycleRecord (pre t : State) : CycleRecord :=
  { inp := pre.sig.inp
    ack := pre.ack
    rdValid := t.sig.rdValid
    rdData := t.sig.rdData
    empty := pre.emptyPort
    full := pre.fullPort
    count := pre.countPort
    dropCnt := pre.dropCnt
    dec := t.sig.dec
    prod := t.sig.prod
    cons := t.sig.cons }

/-- The end of a cycle that started as `pre`: it is recorded, its stimulus is used up, its draw of free values is used up. -/
def State.close (t pre : State) : State :=
  { t with inputs := t.remaining, draws := t.draws + 1, trace := cycleRecord pre t :: t.trace }

/-- One clock edge: sample the inputs, run the cycle, record it. -/
def clockEdge (s : State) : Result := andThen (cycle s.sample) fun t => .next (t.close s.sample)

end Sys2Proof.Machine
end

