-- ==== Sys2Proof/Machine/Present.lean ====
section
/-! DEFINITION. A state whose next step forms a given operation word. PS2RX fetches nothing (R62): an operation is selected by the
registers and the inputs its word is made of, so presenting an operation sets those, and lists the input that goes with it. -/

namespace Sys2Proof.Machine

/-- The next cycle has the inputs `i`. -/
def State.listInput (s : State) (i : PortIn) : State := { s with inputs := .cycle i :: s.inputs }

/-- A DEW `{p, ones[0], dat}` (R74): the slot and the parity so far, and an event with the data bit. -/
def State.presentDew (s : State) (w : Byte) : State :=
  { s with
    p := w.extractLsb' 2 4
    ones := (s.ones &&& 14#4) ||| (w.extractLsb' 1 1).setWidth 4
    ack := false
    wReset := .running
    rReset := .running }.listInput ⟨.clk, false, false, true, w.getLsbD 0, false⟩

/-- No DEW: a cycle without an event (R119). -/
def State.presentHold (s : State) : State :=
  { s with wReset := .running, rReset := .running }.listInput ⟨.clk, false, false, false, false, false⟩

/-- The decoder at the stop slot, ready to push (R116), if `enq`. -/
def State.readyToPush (s : State) (enq : Bool) : State := if enq then { s with p := 10, ack := false } else s

/-- An FOW `{enq, deq, F, E}` (R76): the count that gives F and E. F = E = 1 takes a DEPTH of 0, which no PS2RX has (R79). -/
def State.presentFow (s : State) (w : Byte) : State :=
  let enq := w.getLsbD 3
  let full := w.getLsbD 1
  let empty := w.getLsbD 0
  let depth := if full && empty then 0 else if full || empty then max 1 s.cfg.depth else max 2 s.cfg.depth
  { s.readyToPush enq with
    cfg := { s.cfg with depth := depth, async := false }
    count := if empty then 0 else if full then depth else 1 }.listInput
    ⟨.clk, false, false, enq, true, w.getLsbD 2⟩

/-- A build with ASYNC = 1: DEPTH as it is if it is a power of two of at least 2, else 4 (R7, R160). -/
def State.asAsync (s : State) : State :=
  let depth := if 2 ≤ s.cfg.depth ∧ 2 ^ addrW s.cfg.depth = s.cfg.depth then s.cfg.depth else 4
  { s with cfg := { s.cfg with depth := depth, async := true }, wReset := .running, rReset := .running }

/-- An FOW_W `{enq, F_w}` (R168): the write pointer that gives F_w. -/
def State.presentFowW (s : State) (w : Byte) : State :=
  let enq := w.getLsbD 1
  let t := s.asAsync.readyToPush enq
  let wbin := (t.rseen + if w.getLsbD 0 then t.cfg.depth else 0) % ptrMod t.cfg.depth
  { t with wbin := wbin, wgray := gray wbin }.listInput ⟨.clk, false, false, enq, true, false⟩

/-- An FOW_R `{deq, E_r}` (R168): the read pointer that gives E_r. -/
def State.presentFowR (s : State) (w : Byte) : State :=
  let t := s.asAsync
  let rbin := (t.wseen + if w.getLsbD 0 then 0 else ptrMod t.cfg.depth - 1) % ptrMod t.cfg.depth
  { t with rbin := rbin, rgray := gray rbin }.listInput ⟨.clkR, false, false, false, false, w.getLsbD 1⟩

/-- A PIW `{rst, evt, dat, deq}` with rst = 1 (R82). -/
def State.presentPiw (s : State) (w : Byte) : State :=
  s.listInput ⟨.both, true, true, w.getLsbD 2, w.getLsbD 1, w.getLsbD 0⟩

/-- The state whose next step forms the word of `i`. -/
def State.present (s : State) (i : Instr) : State :=
  match formatOf i with
  | .dew => s.presentDew (encode i)
  | .fow => s.presentFow (encode i)
  | .fowW => s.presentFowW (encode i)
  | .fowR => s.presentFowR (encode i)
  | .piw => s.presentPiw (encode i)
  | .noWord => s.presentHold

end Sys2Proof.Machine
end

