-- ==== Sys2Proof/Machine/Stimulus.lean ====
section
/-! DEFINITION. The notation of stimulus programs (30_encoding.md R82, R83): statements and the clock cycles they stand for. -/

namespace Sys2Proof.Machine

/-- The input ports of a Port Input Word `{rst, evt, dat, deq}` (R82). With ASYNC = 0 the other two fields are not looked at;
with ASYNC = 1 the cycle is an edge of both clocks with `rst_r` equal to `rst`. -/
def portOfPiw (w : Nibble) : PortIn :=
  ⟨.both, w.getLsbD 3, w.getLsbD 3, w.getLsbD 2, w.getLsbD 1, w.getLsbD 0⟩

/-- One cycle with `rst = 0` (R82, `CYC e d q`). -/
def cyc (evt dat deq : Bool) : Pending := .cycle ⟨.both, false, false, evt, dat, deq⟩

/-- `EDGE b` (R83): `evt` high one cycle, then low one cycle, with `dat = b` held in both. -/
def edge (b : Bool) : List Pending := [cyc true b false, cyc false b false]

/-- The 11 slot values of the frame for payload `v` with the parity and stop slots given (R70, R83). -/
def slots (v : Byte) (parity stop : Bool) : List Bool :=
  false :: (List.range 8).map (fun k => v.getLsbD k) ++ [parity, stop]

/-- A statement of a stimulus program (R82, R83). -/
inductive Stmt where
  | rst
  | idle
  | deq
  | cyc (evt dat deq : Bool)
  | edge (b : Bool)
  | frame (v : Byte)
  | frameBadPar (v : Byte)
  | frameBadStop (v : Byte)
  | wait (n : Nat)
  | blockingDeq
  | plusDeq (t : Stmt)
  deriving DecidableEq, Repr

/-- ` +DEQ` may be appended to any statement other than `RST` (R82). -/
def Stmt.ok : Stmt → Bool
  | .plusDeq .rst => false
  | .plusDeq t => t.ok
  | _ => true

/-- `deq = 1` in the cycle (R82, ` +DEQ`). -/
def withDeq : Pending → Pending
  | .cycle i => .cycle { i with deq := true }
  | .blockingDeq => .blockingDeq

/-- The cycles a statement stands for (R82, R83). -/
def Stmt.expand : Stmt → List Pending
  | .rst => [.cycle (portOfPiw 8)]
  | .idle => [Sys2Proof.Machine.cyc false false false]
  | .deq => [Sys2Proof.Machine.cyc false false true]
  | .cyc e d q => [Sys2Proof.Machine.cyc e d q]
  | .edge b => Sys2Proof.Machine.edge b
  | .frame v => (slots v (par v) true).flatMap Sys2Proof.Machine.edge
  | .frameBadPar v => (slots v (!par v) true).flatMap Sys2Proof.Machine.edge
  | .frameBadStop v => (slots v (par v) false).flatMap Sys2Proof.Machine.edge
  | .wait n => List.replicate n (Sys2Proof.Machine.cyc false false false)
  | .blockingDeq => [.blockingDeq]
  | .plusDeq t => t.expand.map withDeq

/-- Lists a stimulus program as the inputs to come (R82, R212). -/
def State.load (s : State) (prog : List Stmt) : State := { s with inputs := prog.flatMap Stmt.expand }

end Sys2Proof.Machine
end

