-- ==== Sys2Proof/Machine/Step.lean ====
section
/-! DEFINITION. The step: one clock edge (R38). -/

namespace Sys2Proof.Machine

/-- One step of PS2RX. -/
def step (s : State) : Host.Outcome State Fault Refusal := clockEdge s

/-- The state whose next step forms and runs the table word `w` of `nbits` bits; the state itself where no operation has it. -/
def State.withFetchWord (s : State) (nbits w : Nat) : State :=
  match decodeTableWord nbits w with
  | some i => s.present i
  | none => s

end Sys2Proof.Machine
end

