-- ==== Sys2Proof/Safety.lean ====
section
/-! DEFINITION. What counts as a safe run, the invariants of the machine (R30, R31, R162 to R167, R176), and the vocabulary in
which statements say what an operation writes and what it leaves as it was. -/

namespace Sys2Proof.Machine

/-! ### Safe runs -/

/-- A step that answers a next state: neither a fault nor a refusal. -/
def Goes (r : Result) : Prop := ∃ t, r = .next t

/-- A safe run of `k` steps: PS2RX never stops (R180). -/
def SafeRun (k : Nat) (s : State) : Prop := ∃ t, Host.Core.run Sys2Proof.core k s = .next t

/-! ### Legal states -/

/-- The build parameters are legal (R7, R160). -/
abbrev LegalConfig (c : Config) : Prop :=
  1 ≤ c.depth ∧ (c.async = true → 2 ≤ c.depth ∧ c.depth = 2 ^ addrW c.depth ∧ 2 ≤ c.syncStages)

/-- The decoder invariants, R30 clause by clause. -/
abbrev State.DecoderInv (s : State) : Prop :=
  s.p.toNat ≤ 10 ∧
  (s.p = 0 → s.acc = 0 ∧ s.ones = 0) ∧
  (1 ≤ s.p.toNat → s.p.toNat ≤ 9 → s.acc >>> (s.p.toNat - 1) = 0 ∧ s.ones.toNat = popcount s.acc) ∧
  (s.p = 10 → s.ones.toNat = popcount s.acc) ∧
  s.ones.toNat ≤ 8

/-- The FIFO invariants of ASYNC = 0 (R31), with the pointers' range (R26, R27). -/
abbrev State.SyncInv (s : State) : Prop :=
  s.head < s.cfg.depth ∧ s.tail < s.cfg.depth ∧ s.count ≤ s.cfg.depth ∧
  s.tail = (s.head + s.count) % s.cfg.depth

/-- The storage is in canonical form and lists only entries 0..DEPTH-1 (R25). -/
abbrev State.StorageInv (s : State) : Prop :=
  Memory.wf s.mem ∧ ∀ c ∈ s.mem, c.1 < s.cfg.depth

/-- ASYNC = 1: the pointers are in range, each gray register holds its pointer's code (R162, R163), and the synchronisers have
SYNC_STAGES stages of AW+1 bits. -/
abbrev State.PointerInv (s : State) : Prop :=
  s.wbin < ptrMod s.cfg.depth ∧ s.rbin < ptrMod s.cfg.depth ∧
  s.wgray = gray s.wbin ∧ s.rgray = gray s.rbin ∧
  s.rq.length = s.cfg.syncStages ∧ s.wq.length = s.cfg.syncStages ∧
  (∀ g ∈ s.rq, g < ptrMod s.cfg.depth) ∧ (∀ g ∈ s.wq, g < ptrMod s.cfg.depth)

/-- ASYNC = 1: how many bytes the write side would count from the read pointer itself and from each stage of `rq`. -/
def State.lagsW (s : State) : List Nat :=
  (s.rbin :: s.rq.map (ungray s.cfg.depth)).map (fun r => ptrDiff s.cfg.depth s.wbin r)

/-- ASYNC = 1: how many bytes the read side would count from the write pointer itself and from each stage of `wq`. -/
def State.lagsR (s : State) : List Nat :=
  (s.wbin :: s.wq.map (ungray s.cfg.depth)).map (fun w => ptrDiff s.cfg.depth w s.rbin)

/-- ASYNC = 1: each stage of a synchroniser holds a value its pointer held, the later stage the older one, so the write side
never counts less, and the read side never more, than is there, and nothing exceeds DEPTH (R175, R176). -/
abbrev State.LagInv (s : State) : Prop :=
  s.lagsW.Pairwise (· ≤ ·) ∧ (∀ d ∈ s.lagsW, d ≤ s.cfg.depth) ∧
  s.lagsR.Pairwise (· ≥ ·) ∧ (∀ d ∈ s.lagsR, d ≤ s.cfg.depth)

/-- ASYNC = 1: the write domain's pointer and synchroniser hold their reset values (R162). -/
abbrev State.WriteSideReset (s : State) : Prop :=
  s.wbin = 0 ∧ s.wgray = 0 ∧ s.rq = List.replicate s.cfg.syncStages 0

/-- ASYNC = 1: the read domain's pointer and synchroniser hold their reset values (R163). -/
abbrev State.ReadSideReset (s : State) : Prop :=
  s.rbin = 0 ∧ s.rgray = 0 ∧ s.wq = List.replicate s.cfg.syncStages 0

/-- A domain is in reset: it has taken a reset edge and none without reset since. -/
abbrev InReset (d : DomainReset) : Prop := d ≠ .running ∧ d ≠ .pending

/-- ASYNC = 1: a domain in reset holds its reset values; a domain that waits to join a reset waits for one the other is in; and
unless a domain waits so, the pointers and their lags are legal (R162, R163, R178). -/
abbrev State.AsyncInv (s : State) : Prop :=
  (InReset s.wReset → s.WriteSideReset) ∧ (InReset s.rReset → s.ReadSideReset) ∧
  (s.wReset = .pending → InReset s.rReset) ∧ (s.rReset = .pending → InReset s.wReset) ∧
  (s.wReset ≠ .pending → s.rReset ≠ .pending → s.PointerInv ∧ s.LagInv)

/-- ASYNC = 1: R178 allows a domain an edge without reset. It stands at `own`: it is not in reset, or has been for SYNC_STAGES + 1
edges of its own clock. Neither domain waits to join the other's reset. And the other does not begin a reset at this very edge. -/
abbrev MayRun (stages : Nat) (own other : DomainReset) (otherResets : Bool) : Prop :=
  (own = .running ∨ ∃ n, own = .held n ∧ stages + 1 ≤ n) ∧ other ≠ .pending ∧ (otherResets = true → InReset other)

/-- The machine's invariant, for both variants. -/
def State.Inv (s : State) : Prop :=
  LegalConfig s.cfg ∧ s.DecoderInv ∧ s.StorageInv ∧
  (s.cfg.async = false → s.SyncInv) ∧ (s.cfg.async = true → s.AsyncInv)

/-! ### The bytes held -/

/-- ASYNC = 0: the bytes held, oldest first (R31). -/
def State.held (s : State) : List Byte :=
  (List.range s.count).map (fun i => s.memRead ((s.head + i) % s.cfg.depth))

/-- ASYNC = 1: the bytes accepted and not yet removed, oldest first. -/
def State.heldAsync (s : State) : List Byte :=
  (List.range (ptrDiff s.cfg.depth s.wbin s.rbin)).map
    (fun i => s.memRead ((s.rbin + i) % 2 ^ addrW s.cfg.depth))

/-- What a FIFO makes of the bytes it holds: a hit takes the oldest, an accepted byte goes behind the newest. -/
def queueAfter (held : List Byte) (cons : ConsOutcome) (prod : ProdOutcome) : List Byte :=
  (match cons with
    | .hit _ => held.tail
    | _ => held) ++
  (match prod with
    | .accept v => [v]
    | _ => [])

/-! ### What stays as it was -/

/-- `p`, `acc`, `ones` and `ack` are as before. -/
abbrev KeepsDecoder (s t : State) : Prop := t.p = s.p ∧ t.acc = s.acc ∧ t.ones = s.ones ∧ t.ack = s.ack

/-- The decoder's part of the cycle's signals is as before. -/
abbrev KeepsRequest (s t : State) : Prop :=
  t.sig.push = s.sig.push ∧ t.sig.pushv = s.sig.pushv ∧ t.sig.dec = s.sig.dec

/-- The FIFO's part of the cycle's signals is as before. -/
abbrev KeepsReadPort (s t : State) : Prop :=
  t.sig.rdValid = s.sig.rdValid ∧ t.sig.rdData = s.sig.rdData ∧ t.sig.cons = s.sig.cons

/-- The FIFO registers of ASYNC = 0 are as before. -/
abbrev KeepsSyncFifo (s t : State) : Prop := t.head = s.head ∧ t.tail = s.tail ∧ t.count = s.count

/-- The write domain's FIFO registers of ASYNC = 1 are as before. -/
abbrev KeepsWriteSide (s t : State) : Prop := t.wbin = s.wbin ∧ t.wgray = s.wgray ∧ t.rq = s.rq

/-- The read domain's FIFO registers of ASYNC = 1 are as before. -/
abbrev KeepsReadSide (s t : State) : Prop := t.rbin = s.rbin ∧ t.rgray = s.rgray ∧ t.wq = s.wq

/-- Every entry of the storage reads as before. -/
def KeepsStorage (s t : State) : Prop := ∀ a, t.memRead a = s.memRead a

/-- Every entry of the storage but `i` reads as before, and `i` holds `v`. -/
def StoresByte (s t : State) (i : Nat) (v : Byte) : Prop :=
  t.memRead i = v ∧ ∀ a, a ≠ i → t.memRead a = s.memRead a

/-- The build parameters, the sampled inputs and the model's own fields are as before. -/
abbrev KeepsRest (s t : State) : Prop :=
  t.cfg = s.cfg ∧ t.wReset = s.wReset ∧ t.rReset = s.rReset ∧ t.inputs = s.inputs ∧ t.draws = s.draws ∧ t.trace = s.trace ∧
  t.sig.inp = s.sig.inp

/-- Everything a decoder operation has no business with: the FIFO, its storage and its drop counter, its signals, the rest. -/
def KeepsFifo (s t : State) : Prop :=
  KeepsSyncFifo s t ∧ KeepsWriteSide s t ∧ KeepsReadSide s t ∧ KeepsStorage s t ∧ t.dropCnt = s.dropCnt ∧
  KeepsReadPort s t ∧ t.sig.prod = s.sig.prod ∧ KeepsRest s t

/-- A decoder operation's whole effect: the three registers, the handshake's `ack <- evt`, the request and the outcome; the rest
of the machine is as it was (R100, R184). -/
def DecoderWrites (s t : State) (p : Nibble) (acc : Byte) (ones : Nibble) (push : Bool) (dec : DecOutcome) : Prop :=
  t.p = p ∧ t.acc = acc ∧ t.ones = ones ∧ t.ack = s.sig.inp.evt ∧ t.sig.push = push ∧ t.sig.dec = dec ∧
  KeepsFifo s t

/-- Everything but the FIFO of ASYNC = 0: what a FIFO operation of ASYNC = 0 has no business with. -/
abbrev KeepsBesidesSyncFifo (s t : State) : Prop :=
  KeepsDecoder s t ∧ KeepsRequest s t ∧ KeepsWriteSide s t ∧ KeepsReadSide s t ∧ KeepsRest s t

/-- A synchroniser has taken `x` into stage 1 and moved each stage on (R165). -/
def Shifted (x : Nat) (q q' : List Nat) : Prop :=
  q'.length = q.length ∧ (0 < q.length → q'[0]? = some x) ∧ ∀ i, i + 1 < q.length → q'[i + 1]? = q[i]?

/-! ### The decoder as a function of its three registers (R38: `DEC(p, acc, ones, dat)`) -/

/-- What a step makes of `p`, `acc` and `ones` and whether it pushes, slot by slot (R101 to R118). -/
def decoderFunction (p : Nibble) (acc : Byte) (ones : Nibble) (dat : Bool) : Nibble × Byte × Nibble × Option Byte :=
  if p = 0 then (if dat then (0, acc, ones, none) else (1, acc, ones, none))
  else if p.toNat ≤ 8 then
    (p + 1, acc ||| (if dat then BitVec.twoPow 8 (p.toNat - 1) else 0), ones + (if dat then 1 else 0), none)
  else if p = 9 then
    (if ones.getLsbD 0 = dat then (0, 0, 0, none) else (10, acc, ones, none))
  else if p = 10 then (0, 0, 0, if dat then some acc else none)
  else (0, 0, 0, none)

/-- One decoder step with the sampled bit `dat`: the operation the DEW selects (R74, R100). -/
def decoderStep (s : State) (dat : Bool) : Result := execWord .dew (dewWord s.p (s.ones.getLsbD 0) dat) s

/-- Consecutive decoder steps with the given slot values; answers the state and the bytes pushed, in order. -/
def feedSlots : List Bool → State → Option (State × List Byte)
  | [], s => some (s, [])
  | b :: bs, s =>
    match decoderStep s b with
    | .next t =>
      match feedSlots bs t with
      | some (u, vs) => some (u, (if t.sig.push then [t.sig.pushv] else []) ++ vs)
      | none => none
    | _ => none

end Sys2Proof.Machine
end

