-- ==== Sys2Proof/Certificates/Slice0/Obligations.lean ====
section
/-! DEFINITION. The statements for the provers. Each docstring names the rules of spec/ it formalises, or, where the spec marks
the sentence as its own inference or the point is the model's choice, says so. -/

open Sys2Proof Sys2Proof.Machine

/-! ### Reset -/

/-- R37: after a cycle with rst = 1 every register holds its reset value and `mem` is unchanged (ASYNC = 0). The operation
RESET completes in every state. -/
def Obligations.ResetRestoresEveryRegister : Prop :=
  ∀ (s : State) (evt dat deq : Bool), s.cfg.async = false →
    ∃ t, exec (.reset evt dat deq) s = .next t ∧
      t.p = 0 ∧ t.acc = 0 ∧ t.ones = 0 ∧ t.ack = false ∧
      t.head = 0 ∧ t.tail = 0 ∧ t.count = 0 ∧ t.dropCnt = 0 ∧
      KeepsStorage s t ∧ KeepsWriteSide s t ∧ KeepsReadSide s t ∧ KeepsRest s t ∧
      t.sig.push = false ∧ t.sig.rdValid = false ∧ t.sig.dec = .none ∧ t.sig.prod = .none ∧ t.sig.cons = .none

/-- R162, R163 with ASYNC = 1: RESET gives each domain whose clock rises with its reset 1 its reset values, and leaves the other
domain as it was. That the domains reset each at an edge of its own clock is read from R160 and R200 (42_fifo_async.md section 1,
70_reset_and_hazards.md section 1; log entry 15). -/
def Obligations.AsyncResetRestoresTheClockedDomains : Prop :=
  ∀ (s : State) (evt dat deq : Bool), s.cfg.async = true →
    ∃ t, exec (.reset evt dat deq) s = .next t ∧
      (if risesClk s.sig.inp.edge = true ∧ s.sig.inp.rst = true then
        t.p = 0 ∧ t.acc = 0 ∧ t.ones = 0 ∧ t.ack = false ∧ t.dropCnt = 0 ∧ t.WriteSideReset ∧
        t.sig.push = false ∧ t.sig.dec = .none ∧ t.sig.prod = .none
      else KeepsDecoder s t ∧ t.dropCnt = s.dropCnt ∧ KeepsWriteSide s t ∧ KeepsRequest s t ∧ t.sig.prod = s.sig.prod) ∧
      (if risesClkR s.sig.inp.edge = true ∧ s.sig.inp.rstR = true then
        t.ReadSideReset ∧ t.sig.rdValid = false ∧ t.sig.cons = .none
      else KeepsReadSide s t ∧ KeepsReadPort s t) ∧
      KeepsStorage s t ∧ KeepsSyncFifo s t ∧ KeepsRest s t

/-- R201: in a reset cycle no decoder step takes place even if `evt` = 1 and `ack` = 0, nothing is pushed, `deq` is ignored and
`rd_valid` = 0; the outputs of the cycle are those of the state before the edge; after the edge every register holds its R37
value and `mem` is unchanged. -/
def Obligations.ResetCycleOverridesEveryInput : Prop :=
  ∀ s : State, s.cfg.async = false → s.nextInput.rst = true →
    ∃ t r, step s = .next t ∧ t.trace = r :: s.trace ∧
      t.p = 0 ∧ t.acc = 0 ∧ t.ones = 0 ∧ t.ack = false ∧
      t.head = 0 ∧ t.tail = 0 ∧ t.count = 0 ∧ t.dropCnt = 0 ∧ KeepsStorage s t ∧ t.sig.push = false ∧
      r.dec = .none ∧ r.prod = .none ∧ r.cons = .none ∧ r.rdValid = false ∧
      r.ack = s.ack ∧ r.empty = s.emptySync ∧ r.full = s.fullSync ∧ r.count = s.count ∧ r.dropCnt = s.dropCnt ∧
      (s.count ≠ 0 → r.rdData = s.memRead s.head)

/-- The machine right after reset, for every legal build: the registers of R37 (R162, R163 for ASYNC = 1) are 0, `empty` = 1 and
`full` = 0 (R33). The build of `State.reset` itself is the model's choice (log entry 1). -/
def Obligations.ResetStateIsIdleAndEmpty : Prop :=
  ∀ c : Config, LegalConfig c →
    let s := State.resetWith c
    s.cfg = c ∧ s.p = 0 ∧ s.acc = 0 ∧ s.ones = 0 ∧ s.ack = false ∧ s.head = 0 ∧ s.tail = 0 ∧ s.count = 0 ∧
      s.dropCnt = 0 ∧ s.WriteSideReset ∧ s.ReadSideReset ∧
      s.emptyPort = true ∧ s.fullPort = false ∧ s.countPort = 0

/-! ### The decoder's operations -/

/-- R101, R102, DEC_IDLE and DEC_START: at the start slot a 1 is ignored and a 0 begins a frame. -/
def Obligations.StartSlotWaitsForAZero : Prop :=
  ∀ (s : State) (ones0 : Bool),
    decode .dew (BitVec.ofNat 8 (2 * ones0.toNat + 1)) = .ok (.decIdle ones0) ∧
    decode .dew (BitVec.ofNat 8 (2 * ones0.toNat)) = .ok (.decStart ones0) ∧
    (∃ t, exec (.decIdle ones0) s = .next t ∧ DecoderWrites s t 0 s.acc s.ones false .idleNoise) ∧
    (∃ t, exec (.decStart ones0) s = .next t ∧ DecoderWrites s t 1 s.acc s.ones false (.absorb 1))

/-- DEC_DATA0 to DEC_DATA7, in the order of their data bits. -/
def Sys2Proof.dataInstrs : List (Bool → Bool → Instr) :=
  [.decData0, .decData1, .decData2, .decData3, .decData4, .decData5, .decData6, .decData7]

/-- R103 to R111, DEC_DATA0 to DEC_DATA7: slot k + 1 puts `dat` into bit k of `acc` by OR and adds it to `ones`; in a legal
decoder state the bit was 0 and the count does not wrap. -/
def Obligations.DataSlotAbsorbsItsBit : Prop :=
  ∀ (s : State) (k : Nat) (mk : Bool → Bool → Instr) (ones0 dat : Bool), dataInstrs[k]? = some mk →
    decode .dew (BitVec.ofNat 8 (4 * (k + 1) + 2 * ones0.toNat + dat.toNat)) = .ok (mk ones0 dat) ∧
    ∃ t, exec (mk ones0 dat) s = .next t ∧
      DecoderWrites s t (BitVec.ofNat 4 (k + 2)) t.acc (s.ones + if dat then 1 else 0) false
        (.absorb (BitVec.ofNat 4 (k + 2))) ∧
      (∀ j, t.acc.getLsbD j = (s.acc.getLsbD j || (dat && j == k))) ∧
      (s.DecoderInv → s.p.toNat = k + 1 →
        s.acc.getLsbD k = false ∧ t.ones.toNat = s.ones.toNat + dat.toNat ∧ t.ones.toNat ≤ 8)

/-- R112 to R115, DEC_PAR_OK_E, DEC_PAR_OK_O, DEC_PAR_BAD_E and DEC_PAR_BAD_O: a pass advances to the stop slot, a failure discards
the frame. -/
def Obligations.ParityRowsAdvanceOrDiscard : Prop :=
  decode .dew 0x25#8 = .ok .decParOkE ∧ decode .dew 0x26#8 = .ok .decParOkO ∧
  decode .dew 0x24#8 = .ok .decParBadE ∧ decode .dew 0x27#8 = .ok .decParBadO ∧
  ∀ s : State,
    (∃ t, exec .decParOkE s = .next t ∧ DecoderWrites s t 10 s.acc s.ones false (.absorb 10)) ∧
    (∃ t, exec .decParOkO s = .next t ∧ DecoderWrites s t 10 s.acc s.ones false (.absorb 10)) ∧
    (∃ t, exec .decParBadE s = .next t ∧ DecoderWrites s t 0 0 0 false (.parityErr s.acc)) ∧
    (∃ t, exec .decParBadO s = .next t ∧ DecoderWrites s t 0 0 0 false (.parityErr s.acc))

/-- R71: with `ones` counting the payload, the parity slot passes exactly when the ones of payload and parity bit together are
odd, that is when `ones[0]` and the bit differ; `par` is the bit that makes it pass. -/
def Obligations.ParitySlotDemandsOddParity : Prop :=
  (∀ (s : State) (b : Bool), s.p = 9 → s.ones.toNat = popcount s.acc →
    ∃ t, decoderStep s b = .next t ∧
      (t.p = 10 ↔ (popcount s.acc + b.toNat) % 2 = 1) ∧
      (t.p = 10 ↔ s.ones.getLsbD 0 ≠ b) ∧
      (t.p ≠ 10 → t.p = 0 ∧ t.acc = 0 ∧ t.ones = 0)) ∧
  ∀ v : Byte, (par v).toNat = 1 - popcount v % 2 ∧ (popcount v + (par v).toNat) % 2 = 1

/-- R116, DEC_STOP_OK: the byte is pushed and the decoder is idle again; and, through the FIFO's operation of the same cycle
(ASYNC = 0), `count` rises by one unless a hit of the same cycle cancels it, or, with a full FIFO, the byte is dropped. -/
def Obligations.StopBitOnePushesTheByte : Prop :=
  (∀ (s : State) (ones0 : Bool),
    decode .dew (BitVec.ofNat 8 (0x29 + 2 * ones0.toNat)) = .ok (.decStopOk ones0) ∧
    ∃ t, exec (.decStopOk ones0) s = .next t ∧
      DecoderWrites s t 0 0 0 true (.frameOk s.acc) ∧ t.sig.pushv = s.acc) ∧
  ∀ s : State, s.cfg.async = false → s.SyncInv → s.p = 10 → s.ack = false →
    s.nextInput.rst = false → s.nextInput.evt = true → s.nextInput.dat = true →
    ∃ t r, step s = .next t ∧ t.trace = r :: s.trace ∧
      t.p = 0 ∧ t.acc = 0 ∧ t.ones = 0 ∧ t.ack = true ∧ r.dec = .frameOk s.acc ∧
      (s.count ≠ s.cfg.depth →
        r.prod = .accept s.acc ∧ t.memRead s.tail = s.acc ∧
        t.count + (s.nextInput.deq && s.count != 0).toNat = s.count + 1) ∧
      (s.count = s.cfg.depth →
        r.prod = .drop s.acc ∧ t.count + s.nextInput.deq.toNat = s.count)

/-- R117, DEC_STOP_BAD: no byte is pushed. -/
def Obligations.StopBitZeroDiscardsTheFrame : Prop :=
  ∀ (s : State) (ones0 : Bool),
    decode .dew (BitVec.ofNat 8 (0x28 + 2 * ones0.toNat)) = .ok (.decStopBad ones0) ∧
    ∃ t, exec (.decStopBad ones0) s = .next t ∧ DecoderWrites s t 0 0 0 false (.stopErr s.acc)

/-- R118, DEC_RECOVER_B and DEC_RECOVER_C: p in 11..15 recovers to idle with no push, the sampled bit is discarded. -/
def Obligations.UnreachableSlotRecoversToIdle : Prop :=
  ∀ (s : State) (plow : BitVec 2) (ones0 dat : Bool),
    decode .dew (BitVec.ofNat 8 (0x2C + 2 * ones0.toNat + dat.toNat)) = .ok (.decRecoverB ones0 dat) ∧
    decode .dew (BitVec.ofNat 8 (0x30 + 4 * plow.toNat + 2 * ones0.toNat + dat.toNat)) =
      .ok (.decRecoverC plow ones0 dat) ∧
    (∃ t, exec (.decRecoverB ones0 dat) s = .next t ∧ DecoderWrites s t 0 0 0 false (.recover s.p)) ∧
    (∃ t, exec (.decRecoverC plow ones0 dat) s = .next t ∧ DecoderWrites s t 0 0 0 false (.recover s.p))

/-- R119, DEC_HOLD: it leaves the decoder as it was and pushes nothing, and it is the decoder's part of every cycle without a
step, that is with rst = 0 and not (evt = 1 and ack = 0). -/
def Obligations.HoldLeavesTheDecoder : Prop :=
  (∀ s : State, ∃ t, exec .decHold s = .next t ∧ DecoderWrites s t s.p s.acc s.ones false .none) ∧
  ∀ s : State, ¬ (s.sig.inp.evt = true ∧ s.ack = false) → decoderPart s = exec .decHold s

/-! ### The FIFO's operations, ASYNC = 0 -/

/-- R132, FIFO_IMPOSSIBLE: the model refuses it, and with DEPTH >= 1 no state forms its word. -/
def Obligations.FullAndEmptyIsRefused : Prop :=
  ∀ (s : State) (enq deq : Bool),
    decode .fow (BitVec.ofNat 8 (8 * enq.toNat + 4 * deq.toNat + 3)) = .ok (.fifoImpossible enq deq) ∧
    exec (.fifoImpossible enq deq) s = .refused .fullAndEmpty ∧
    (1 ≤ s.cfg.depth → decode .fow s.fowOf ≠ .ok (.fifoImpossible enq deq))

/-- R133, R137, FIFO_IDLE and FIFO_POP_MISS: nothing changes and `rd_valid` = 0; in FIFO_IDLE `rd_data` shows the head byte, if
there is one. -/
def Obligations.IdleAndMissLeaveTheFifo : Prop :=
  decode .fow 0x05#8 = .ok (.fifoPopMiss false) ∧
  ∀ (s : State) (full empty : Bool),
    ((full && empty) = false →
      decode .fow (BitVec.ofNat 8 (2 * full.toNat + empty.toNat)) = .ok (.fifoIdle full empty)) ∧
    (∃ t, exec (.fifoIdle full empty) s = .next t ∧
      KeepsSyncFifo s t ∧ KeepsStorage s t ∧ t.dropCnt = s.dropCnt ∧
      t.sig.rdValid = false ∧ (s.count ≠ 0 → t.sig.rdData = s.memRead s.head) ∧
      t.sig.prod = .none ∧ t.sig.cons = .none ∧ KeepsBesidesSyncFifo s t) ∧
    (∃ t, exec (.fifoPopMiss full) s = .next t ∧
      KeepsSyncFifo s t ∧ KeepsStorage s t ∧ t.dropCnt = s.dropCnt ∧ t.sig.rdValid = false ∧
      t.sig.prod = .none ∧ t.sig.cons = .miss ∧ KeepsBesidesSyncFifo s t)

/-- R134, FIFO_PUSH: with legal pointers and F = 0 the byte is stored at `tail`, which advances modulo DEPTH, and `count` rises
by one; every other entry is as before. -/
def Obligations.PushStoresTheByteAtTail : Prop :=
  ∀ (s : State) (empty : Bool), s.SyncInv → s.count ≠ s.cfg.depth →
    decode .fow (BitVec.ofNat 8 (8 + empty.toNat)) = .ok (.fifoPush empty) ∧
    ∃ t, exec (.fifoPush empty) s = .next t ∧
      StoresByte s t s.tail s.sig.pushv ∧ t.tail = (s.tail + 1) % s.cfg.depth ∧
      t.head = s.head ∧ t.count = s.count + 1 ∧ t.emptySync = false ∧
      (t.fullSync = true ↔ s.count + 1 = s.cfg.depth) ∧ (s.count = 0 → t.memRead t.head = s.sig.pushv) ∧
      t.dropCnt = s.dropCnt ∧ t.sig.rdValid = false ∧
      t.sig.prod = .accept s.sig.pushv ∧ t.sig.cons = .none ∧ KeepsBesidesSyncFifo s t

/-- R135, FIFO_PUSH_DROP: the byte is dropped and counted, saturating at 255; storage, pointers and count are as before. -/
def Obligations.PushIntoAFullFifoIsDropped : Prop :=
  decode .fow 0x0A#8 = .ok (.fifoPushDrop false) ∧
  ∀ (s : State) (empty : Bool), ∃ t, exec (.fifoPushDrop empty) s = .next t ∧
    t.dropCnt = (if s.dropCnt = 255 then 255 else s.dropCnt + 1) ∧
    KeepsSyncFifo s t ∧ KeepsStorage s t ∧ t.sig.rdValid = false ∧
    t.sig.prod = .drop s.sig.pushv ∧ t.sig.cons = .none ∧ KeepsBesidesSyncFifo s t

/-- R136, FIFO_POP: with legal pointers and E = 0 the byte at `head` is delivered, `head` advances modulo DEPTH and `count` falls
by one; the storage is as before. -/
def Obligations.PopDeliversTheHeadByte : Prop :=
  ∀ (s : State) (full : Bool), s.SyncInv → s.count ≠ 0 →
    decode .fow (BitVec.ofNat 8 (4 + 2 * full.toNat)) = .ok (.fifoPop full) ∧
    ∃ t, exec (.fifoPop full) s = .next t ∧
      t.sig.rdValid = true ∧ t.sig.rdData = s.memRead s.head ∧
      t.head = (s.head + 1) % s.cfg.depth ∧ t.tail = s.tail ∧ t.count + 1 = s.count ∧
      t.fullSync = false ∧ (t.emptySync = true ↔ s.count = 1) ∧
      KeepsStorage s t ∧ t.dropCnt = s.dropCnt ∧
      t.sig.prod = .none ∧ t.sig.cons = .hit (s.memRead s.head) ∧ KeepsBesidesSyncFifo s t

/-- R138, FIFO_PUSH_POP: the head byte is delivered as it was before the write, the new byte is stored at `tail`, both pointers
advance and `count` is unchanged; `head` and `tail` differ. -/
def Obligations.PushPopMovesBothPointers : Prop :=
  decode .fow 0x0C#8 = .ok .fifoPushPop ∧
  ∀ s : State, s.SyncInv → s.count ≠ 0 → s.count ≠ s.cfg.depth →
    s.head ≠ s.tail ∧
    ∃ t, exec .fifoPushPop s = .next t ∧
      t.sig.rdValid = true ∧ t.sig.rdData = s.memRead s.head ∧
      StoresByte s t s.tail s.sig.pushv ∧ t.tail = (s.tail + 1) % s.cfg.depth ∧
      t.head = (s.head + 1) % s.cfg.depth ∧ t.count = s.count ∧ t.dropCnt = s.dropCnt ∧
      t.sig.prod = .accept s.sig.pushv ∧ t.sig.cons = .hit (s.memRead s.head) ∧ KeepsBesidesSyncFifo s t

/-- R139, FIFO_PUSH_POPMISS: on an empty FIFO the byte is stored, the dequeue of the same cycle misses, and `count` is 1. -/
def Obligations.PushWithMissDoesNotBypass : Prop :=
  decode .fow 0x0D#8 = .ok .fifoPushPopMiss ∧
  ∀ s : State, s.SyncInv → s.count = 0 →
    ∃ t, exec .fifoPushPopMiss s = .next t ∧
      t.sig.rdValid = false ∧ StoresByte s t s.tail s.sig.pushv ∧
      t.tail = (s.tail + 1) % s.cfg.depth ∧ t.head = s.head ∧ t.count = 1 ∧
      t.emptySync = false ∧ (t.fullSync = true ↔ s.cfg.depth = 1) ∧ t.memRead t.head = s.sig.pushv ∧
      t.dropCnt = s.dropCnt ∧
      t.sig.prod = .accept s.sig.pushv ∧ t.sig.cons = .miss ∧ KeepsBesidesSyncFifo s t

/-- R140, FIFO_DROP_POP: on a full FIFO the enqueue is dropped although the hit of the same cycle frees an entry. -/
def Obligations.DropWithHitKeepsTheStorage : Prop :=
  decode .fow 0x0E#8 = .ok .fifoDropPop ∧
  ∀ s : State, s.SyncInv → s.count = s.cfg.depth →
    ∃ t, exec .fifoDropPop s = .next t ∧
      t.sig.rdValid = true ∧ t.sig.rdData = s.memRead s.head ∧
      t.head = (s.head + 1) % s.cfg.depth ∧ t.tail = s.tail ∧ t.count + 1 = s.count ∧
      t.dropCnt = (if s.dropCnt = 255 then 255 else s.dropCnt + 1) ∧ KeepsStorage s t ∧
      t.fullSync = false ∧ (t.emptySync = true ↔ s.cfg.depth = 1) ∧
      t.sig.prod = .drop s.sig.pushv ∧ t.sig.cons = .hit (s.memRead s.head) ∧ KeepsBesidesSyncFifo s t

/-! ### The FIFO's operations, ASYNC = 1 -/

/-- R169, W_IDLE: only the synchroniser shifts. -/
def Obligations.WriteIdleOnlyShifts : Prop :=
  ∀ (s : State) (fullW : Bool),
    decode .fowW (BitVec.ofNat 8 fullW.toNat) = .ok (.wIdle fullW) ∧
    ∃ t, exec (.wIdle fullW) s = .next t ∧
      t.wbin = s.wbin ∧ t.wgray = s.wgray ∧ KeepsStorage s t ∧ Shifted s.rgray s.rq t.rq ∧
      t.dropCnt = s.dropCnt ∧ t.sig.prod = .none ∧
      KeepsDecoder s t ∧ KeepsRequest s t ∧ KeepsSyncFifo s t ∧ KeepsReadSide s t ∧ KeepsReadPort s t ∧ KeepsRest s t

/-- R170, W_PUSH: in a legal ASYNC = 1 build the byte is stored at the entry `wbin[AW-1:0]`, that is `wbin` modulo DEPTH, and
the pointer and its gray code advance modulo 2^(AW+1); outside a reset, with F_w = 0, `count_w` rises by one unless `rseen`
advances too. -/
def Obligations.WritePushStoresAtTheWritePointer : Prop :=
  decode .fowW 0x02#8 = .ok .wPush ∧
  ∀ s : State, LegalConfig s.cfg → s.cfg.async = true →
    ∃ t, exec .wPush s = .next t ∧
      StoresByte s t (s.wbin % s.cfg.depth) s.sig.pushv ∧
      t.wbin = (s.wbin + 1) % (2 * s.cfg.depth) ∧ t.wgray = gray ((s.wbin + 1) % (2 * s.cfg.depth)) ∧
      Shifted s.rgray s.rq t.rq ∧ t.dropCnt = s.dropCnt ∧ t.sig.prod = .accept s.sig.pushv ∧
      (s.PointerInv → s.LagInv → s.fullW = false → t.rseen = s.rseen → t.countW = s.countW + 1) ∧
      KeepsDecoder s t ∧ KeepsRequest s t ∧ KeepsSyncFifo s t ∧ KeepsReadSide s t ∧ KeepsReadPort s t ∧ KeepsRest s t

/-- R171, W_DROP: the byte is dropped and counted; pointer and storage are as before. -/
def Obligations.WriteDropCountsTheByte : Prop :=
  decode .fowW 0x03#8 = .ok .wDrop ∧
  ∀ s : State, ∃ t, exec .wDrop s = .next t ∧
    t.dropCnt = (if s.dropCnt = 255 then 255 else s.dropCnt + 1) ∧
    t.wbin = s.wbin ∧ t.wgray = s.wgray ∧ KeepsStorage s t ∧ Shifted s.rgray s.rq t.rq ∧
    t.sig.prod = .drop s.sig.pushv ∧
    KeepsDecoder s t ∧ KeepsRequest s t ∧ KeepsSyncFifo s t ∧ KeepsReadSide s t ∧ KeepsReadPort s t ∧ KeepsRest s t

/-- R172, R174, R_IDLE and R_MISS: nothing changes but the synchroniser; `rd_valid` = 0. -/
def Obligations.ReadIdleAndMissOnlyShift : Prop :=
  decode .fowR 0x03#8 = .ok .rMiss ∧
  ∀ (s : State) (emptyR : Bool),
    decode .fowR (BitVec.ofNat 8 emptyR.toNat) = .ok (.rIdle emptyR) ∧
    (∃ t, exec (.rIdle emptyR) s = .next t ∧ t.sig.cons = .none ∧ t.sig.rdValid = false ∧
      t.rbin = s.rbin ∧ t.rgray = s.rgray ∧ Shifted s.wgray s.wq t.wq ∧ KeepsStorage s t ∧
      KeepsDecoder s t ∧ KeepsRequest s t ∧ KeepsSyncFifo s t ∧ KeepsWriteSide s t ∧
      t.dropCnt = s.dropCnt ∧ t.sig.prod = s.sig.prod ∧ KeepsRest s t) ∧
    (∃ t, exec .rMiss s = .next t ∧ t.sig.cons = .miss ∧ t.sig.rdValid = false ∧
      t.rbin = s.rbin ∧ t.rgray = s.rgray ∧ Shifted s.wgray s.wq t.wq ∧ KeepsStorage s t ∧
      KeepsDecoder s t ∧ KeepsRequest s t ∧ KeepsSyncFifo s t ∧ KeepsWriteSide s t ∧
      t.dropCnt = s.dropCnt ∧ t.sig.prod = s.sig.prod ∧ KeepsRest s t)

/-- R173, R_POP: in a legal ASYNC = 1 build the byte at the entry `rbin[AW-1:0]` is delivered and the pointer and its gray code
advance modulo 2^(AW+1); outside a reset, with E_r = 0, `count_r` falls by one unless `wseen` advances too. -/
def Obligations.ReadPopDeliversTheByteAtTheReadPointer : Prop :=
  decode .fowR 0x02#8 = .ok .rPop ∧
  ∀ s : State, LegalConfig s.cfg → s.cfg.async = true →
    ∃ t, exec .rPop s = .next t ∧
      t.sig.rdValid = true ∧ t.sig.rdData = s.memRead (s.rbin % s.cfg.depth) ∧
      t.sig.cons = .hit (s.memRead (s.rbin % s.cfg.depth)) ∧
      t.rbin = (s.rbin + 1) % (2 * s.cfg.depth) ∧ t.rgray = gray ((s.rbin + 1) % (2 * s.cfg.depth)) ∧
      Shifted s.wgray s.wq t.wq ∧ KeepsStorage s t ∧ t.dropCnt = s.dropCnt ∧
      (s.PointerInv → s.LagInv → s.emptyR = false → t.wseen = s.wseen → t.countR + 1 = s.countR) ∧
      KeepsDecoder s t ∧ KeepsRequest s t ∧ KeepsSyncFifo s t ∧ KeepsWriteSide s t ∧ t.sig.prod = s.sig.prod ∧
      KeepsRest s t

/-! ### Words, decoding, and what a step runs -/

/-- Words written out from the tables of R75, R77, R168 and R82, one or more of each format, and words that are no operation. -/
def Obligations.SpecWordsDecodeToTheirRows : Prop :=
  decode .dew 0b000001#8 = .ok (.decIdle false) ∧ decode .dew 0b010111#8 = .ok (.decData4 true true) ∧
  decode .dew 0b100110#8 = .ok .decParOkO ∧ decode .dew 0b101011#8 = .ok (.decStopOk true) ∧
  decode .dew 0b110101#8 = .ok (.decRecoverC 1 false true) ∧
  decode .fow 0b1001#8 = .ok (.fifoPush true) ∧ decode .fow 0b0110#8 = .ok (.fifoPop true) ∧
  decode .fow 0b1011#8 = .ok (.fifoImpossible true false) ∧
  decode .fowW 0b10#8 = .ok .wPush ∧ decode .fowR 0b11#8 = .ok .rMiss ∧
  decode .piw 0b1101#8 = .ok (.reset true false true) ∧ decode .piw 0b0101#8 = .error .notReset ∧
  decode .dew 0b1000000#8 = .error .strayBits ∧ decode .fow 0b10000#8 = .error .strayBits

/-- Decode and encode agree: every well-formed operation is read back from its word, in its format. -/
def Obligations.DecodeReadsBackEveryEncoding : Prop :=
  ∀ i : Instr, WellFormed i = true → decode (formatOf i) (encode i) = .ok i ∧ decodeTableWord 16 (tableWord i) = some i

/-- Encode and decode agree: whatever a word decodes to is well-formed, of the word's format, and has that word. -/
def Obligations.EveryDecodedWordIsTheEncoding : Prop :=
  ∀ (f : Format) (w : Byte) (i : Instr), f ≠ .noWord → decode f w = .ok i →
    WellFormed i = true ∧ formatOf i = f ∧ encode i = w

/-- ASYNC = 0, a cycle without reset: the step runs the operation the DEW decodes to (DEC_HOLD in a cycle without a step), then,
on the state that gives, the operation the FOW decodes to, and closes the cycle: it records it and uses up its stimulus. -/
def Obligations.SyncStepRunsTheDecodedOperations : Prop :=
  ∀ (s : State) (i j : Instr) (t : State), s.cfg.async = false → s.nextInput.rst = false →
    (if s.nextInput.evt && !s.ack then decode .dew s.sample.dewOf = .ok i else i = .decHold) →
    exec i s.sample = .next t → decode .fow t.fowOf = .ok j →
    step s = andThen (exec j t) (fun u => .next (u.close s.sample))

/-- Reset: with ASYNC = 0 a step with rst = 1 runs the RESET its PIW decodes to. With ASYNC = 1, for which R82 defines no PIW, it is
the model's choice that a reset edge forms one (log entry 15): an edge at which every domain whose clock rises samples its reset
runs the RESET of that word, on the state whose joint reset has been tracked (log entry 9). -/
def Obligations.ResetStepRunsTheDecodedReset : Prop :=
  ∀ s : State,
    (s.cfg.async = false → s.nextInput.rst = true →
      decode .piw s.sample.piwOf = .ok (.reset s.nextInput.evt s.nextInput.dat s.nextInput.deq) ∧
      step s = andThen (exec (.reset s.nextInput.evt s.nextInput.dat s.nextInput.deq) s.sample)
        (fun u => .next (u.close s.sample))) ∧
    (s.cfg.async = true → (risesClk s.nextInput.edge = true → s.nextInput.rst = true) →
      (risesClkR s.nextInput.edge = true → s.nextInput.rstR = true) →
      decode .piw s.sample.piwOf = .ok (.reset s.nextInput.evt s.nextInput.dat s.nextInput.deq) ∧
      step s = andThen (exec (.reset s.nextInput.evt s.nextInput.dat s.nextInput.deq) s.sample.trackReset)
        (fun u => .next (u.close s.sample)))

/-- ASYNC = 1, every edge at which some domain runs and R178 allows it, the first edges after a joint reset among them: an edge of
`clk` alone runs the DEW's operation and then the FOW_W's, an edge of `clk_r` alone the FOW_R's; an edge of both runs RESET for a
domain that samples its reset, and for one that does not the FOW_R's, or the DEW's and the FOW_W's, after which stage 1 of the
synchroniser of each domain that ran takes the old or the new pointer (U6). The order and the tracking of the joint reset are the
model's form (log entries 6 and 9). -/
def Obligations.AsyncStepRunsTheDecodedOperations : Prop :=
  ∀ (s : State) (i : Instr), s.cfg.async = true →
    (if s.nextInput.evt && !s.ack then decode .dew s.sample.dewOf = .ok i else i = .decHold) →
    let q := s.sample.trackReset
    let reset := Instr.reset s.nextInput.evt s.nextInput.dat s.nextInput.deq
    let writeMay := fun readResets => MayRun s.cfg.syncStages s.wReset s.rReset readResets
    let readMay := fun writeResets => MayRun s.cfg.syncStages s.rReset s.wReset writeResets
    (s.nextInput.edge = .clk → s.nextInput.rst = false → writeMay false → ∀ (j : Instr) (t : State),
      exec i q = .next t → decode .fowW t.fowWOf = .ok j →
      step s = andThen (exec j t) (fun u => .next (u.close s.sample))) ∧
    (s.nextInput.edge = .clkR → s.nextInput.rstR = false → readMay false → ∀ k : Instr,
      decode .fowR q.fowROf = .ok k →
      step s = andThen (exec k q) (fun u => .next (u.close s.sample))) ∧
    (s.nextInput.edge = .both → s.nextInput.rst = false → s.nextInput.rstR = false → writeMay false → readMay false →
      ∀ (j k : Instr) (t u : State),
      decode .fowR q.fowROf = .ok k → exec k q = .next t → exec i t = .next u → decode .fowW u.fowWOf = .ok j →
      step s = andThen (exec j u) (fun v => .next ((v.resolveStage1 q).close s.sample))) ∧
    (s.nextInput.edge = .both → s.nextInput.rst = true → s.nextInput.rstR = false → readMay true →
      ∀ (k : Instr) (t : State), exec reset q = .next t → decode .fowR t.fowROf = .ok k →
      step s = andThen (exec k t) (fun u => .next ((u.resolveStage1 q).close s.sample))) ∧
    (s.nextInput.edge = .both → s.nextInput.rst = false → s.nextInput.rstR = true → writeMay true →
      ∀ (j : Instr) (t u : State), exec reset q = .next t → exec i t = .next u → decode .fowW u.fowWOf = .ok j →
      step s = andThen (exec j u) (fun v => .next ((v.resolveStage1 q).close s.sample)))

/-- The host's fetch word: presenting a decoder operation's table word makes the next cycle a step cycle whose DEW decodes to it. -/
def Obligations.PresentedDecoderWordIsFormedNext : Prop :=
  ∀ (s : State) (i : Instr), formatOf i = .dew →
    let q := (s.withFetchWord 16 (tableWord i)).sample
    q.takesStep = true ∧ decode .dew q.dewOf = .ok i ∧ q.sig.inp.rst = false

/-! ### Invariants -/

/-- R30, which the spec infers from its rules: every step, of either variant, keeps the decoder invariants. -/
def Obligations.StepKeepsTheDecoderInvariants : Prop :=
  ∀ s t : State, s.DecoderInv → step s = .next t → t.DecoderInv

/-- The storage keeps its canonical form, and never lists an entry at DEPTH or beyond (R25, R50). -/
def Obligations.StepKeepsTheStorageForm : Prop :=
  ∀ s t : State, s.StorageInv → step s = .next t → t.StorageInv

/-- R31: with ASYNC = 0 every step keeps head, tail and count legal. -/
def Obligations.StepKeepsTheFifoInvariants : Prop :=
  ∀ s t : State, s.cfg.async = false → s.SyncInv → step s = .next t → t.SyncInv

/-- With ASYNC = 1, in a legal build, every step keeps the pointers, their gray codes and their synchronised copies legal: each
stage holds a value the pointer held, the later the older, never further behind than DEPTH (R162 to R167, R175, R176); through
a joint reset, a domain in reset holds its reset values (R178; where a domain stands in one is log entry 9). -/
def Obligations.StepKeepsTheCrossingInvariants : Prop :=
  ∀ s t : State, LegalConfig s.cfg → s.cfg.async = true → s.AsyncInv → step s = .next t → t.AsyncInv

/-- The machine right after reset meets the whole invariant, in every legal build. -/
def Obligations.ResetMeetsTheInvariants : Prop := ∀ c : Config, LegalConfig c → (State.resetWith c).Inv

/-- R34: no step changes a build parameter. -/
def Obligations.StepKeepsTheBuildParameters : Prop := ∀ s t : State, step s = .next t → t.cfg = s.cfg

/-! ### Safety -/

/-- R180 with ASYNC = 0: in a state with legal pointers every input has a successor; PS2RX never stops. -/
def Obligations.LegalSyncStateNeverStops : Prop :=
  ∀ s : State, s.cfg.async = false → s.SyncInv → Goes (step s)

/-- R180 with ASYNC = 1: in a legal build an edge has a successor, whatever the inputs, if R178 allows an edge without reset to each
domain that takes one; a reset edge always has one. So resets asserted together, and each held for SYNC_STAGES + 1 edges of its own
clock, go on however far apart they are released. How `MayRun` reads R178 is log entry 9. -/
def Obligations.LegalAsyncStateStopsOnlyOnABrokenReset : Prop :=
  ∀ s : State, LegalConfig s.cfg → s.cfg.async = true →
    (risesClk s.nextInput.edge = true → s.nextInput.rst = false →
      MayRun s.cfg.syncStages s.wReset s.rReset (risesClkR s.nextInput.edge && s.nextInput.rstR)) →
    (risesClkR s.nextInput.edge = true → s.nextInput.rstR = false →
      MayRun s.cfg.syncStages s.rReset s.wReset (risesClk s.nextInput.edge && s.nextInput.rst)) →
    Goes (step s)

/-- R178, U5, with ASYNC = 1: a domain that takes an edge without reset while one domain alone is in reset is refused, and so is one
that was in reset for too few edges of its own clock (the write domain's reason first); and where a step goes on, each domain's
edges in reset have been counted, a reset that begins makes the other domain join it. The form of the counting is log entry 9. -/
def Obligations.BrokenJointResetIsRefused : Prop :=
  ∀ s : State, s.cfg.async = true →
    let i := s.nextInput
    let writeResets := risesClk i.edge && i.rst
    let readResets := risesClkR i.edge && i.rstR
    (risesClk i.edge = true → i.rst = false →
      ((s.wReset = .pending ∨ s.rReset = .pending ∨ (s.rReset = .running ∧ readResets = true)) →
        step s = .refused .resetOfOneDomain) ∧
      (∀ n, s.wReset = .held n → n < s.cfg.syncStages + 1 → s.rReset ≠ .pending →
        ¬ (s.rReset = .running ∧ readResets = true) → step s = .refused .resetTooShort)) ∧
    (risesClkR i.edge = true → i.rstR = false →
      (risesClk i.edge = true → i.rst = false → MayRun s.cfg.syncStages s.wReset s.rReset readResets) →
      ((s.rReset = .pending ∨ s.wReset = .pending ∨ (s.wReset = .running ∧ writeResets = true)) →
        step s = .refused .resetOfOneDomain) ∧
      (∀ n, s.rReset = .held n → n < s.cfg.syncStages + 1 → s.wReset ≠ .pending →
        ¬ (s.wReset = .running ∧ writeResets = true) → step s = .refused .resetTooShort)) ∧
    (∀ t, step s = .next t →
      (writeResets = true → t.wReset = match s.wReset with | .held n => .held (n + 1) | _ => .held 1) ∧
      (risesClk i.edge = true → i.rst = false → t.wReset = .running) ∧
      (risesClk i.edge = false → t.wReset =
        if s.wReset = .running ∧ s.rReset = .running ∧ readResets = true then .pending else s.wReset) ∧
      (readResets = true → t.rReset = match s.rReset with | .held n => .held (n + 1) | _ => .held 1) ∧
      (risesClkR i.edge = true → i.rstR = false → t.rReset = .running) ∧
      (risesClkR i.edge = false → t.rReset =
        if s.rReset = .running ∧ s.wReset = .running ∧ writeResets = true then .pending else s.rReset))

/-- Log entry 8: an accepted enqueue or a hit at an index that is no entry of the storage is a fault, in each of the seven
operations that make one; in FIFO_PUSH_POP the hit's index is looked at first. No legal state has such an index. -/
def Obligations.AccessBeyondTheStorageFaults : Prop :=
  ∀ s : State,
    (s.cfg.depth ≤ s.tail →
      (∀ empty, exec (.fifoPush empty) s = .fault (.noSuchEntry s.tail)) ∧
      exec .fifoPushPopMiss s = .fault (.noSuchEntry s.tail) ∧
      (s.head < s.cfg.depth → exec .fifoPushPop s = .fault (.noSuchEntry s.tail))) ∧
    (s.cfg.depth ≤ s.head →
      (∀ full, exec (.fifoPop full) s = .fault (.noSuchEntry s.head)) ∧
      exec .fifoPushPop s = .fault (.noSuchEntry s.head) ∧ exec .fifoDropPop s = .fault (.noSuchEntry s.head)) ∧
    (s.cfg.depth ≤ s.wbin % 2 ^ addrW s.cfg.depth →
      exec .wPush s = .fault (.noSuchEntry (s.wbin % 2 ^ addrW s.cfg.depth))) ∧
    (s.cfg.depth ≤ s.rbin % 2 ^ addrW s.cfg.depth →
      exec .rPop s = .fault (.noSuchEntry (s.rbin % 2 ^ addrW s.cfg.depth)))

/-! ### The handshake, the outputs, the registers' owners -/

/-- R184, both variants, at an edge of `clk`: a decoder step takes place exactly if `!rst && evt && !ack`, `ack` becomes `evt` (0
in reset), and so the next edge's `evt` is a step exactly if `evt` was 0, or reset was active, at this one. -/
def Obligations.EventHandshakeDetectsARisingEvent : Prop :=
  ∀ s t : State, (s.cfg.async = false ∨ risesClk s.nextInput.edge = true) → step s = .next t →
    ∃ r, t.trace = r :: s.trace ∧
      (r.dec ≠ .none ↔ (s.nextInput.rst = false ∧ s.nextInput.evt = true ∧ s.ack = false)) ∧
      t.ack = (!s.nextInput.rst && s.nextInput.evt) ∧
      ((t.nextInput.rst = false ∧ t.nextInput.evt = true ∧ t.ack = false) ↔
        (t.nextInput.rst = false ∧ t.nextInput.evt = true ∧
          (s.nextInput.evt = false ∨ s.nextInput.rst = true)))

/-- R32: the outputs a cycle shows, as functions of the registers at its start and its inputs (ASYNC = 0). -/
def Obligations.OutputsFollowTheRegisters : Prop :=
  ∀ s t : State, s.cfg.async = false → step s = .next t →
    ∃ r, t.trace = r :: s.trace ∧
      r.ack = s.ack ∧ (s.count ≠ 0 → r.rdData = s.memRead s.head) ∧
      r.rdValid = (!s.nextInput.rst && s.nextInput.deq && s.count != 0) ∧
      r.empty = (s.count == 0) ∧ r.full = (s.count == s.cfg.depth) ∧ r.count = s.count ∧ r.dropCnt = s.dropCnt

/-- R166, R167: with ASYNC = 1 `full` is the write side's view and `empty`, `count` and `rd_data` the read side's; `rd_valid` is
shown in the cycles of `clk_r` (log entry 12). -/
def Obligations.AsyncOutputsAreEachSidesView : Prop :=
  ∀ s t : State, LegalConfig s.cfg → s.cfg.async = true → step s = .next t →
    ∃ r, t.trace = r :: s.trace ∧
      r.full = (ptrDiff s.cfg.depth s.wbin (ungray s.cfg.depth (s.rq.getLastD 0)) == s.cfg.depth) ∧
      r.count = ptrDiff s.cfg.depth (ungray s.cfg.depth (s.wq.getLastD 0)) s.rbin ∧
      r.empty = (r.count == 0) ∧ (r.empty = false → r.rdData = s.memRead (s.rbin % s.cfg.depth)) ∧
      r.rdValid = (risesClkR s.nextInput.edge && !s.nextInput.rstR && s.nextInput.deq && r.count != 0) ∧
      r.ack = s.ack ∧ r.dropCnt = s.dropCnt

/-- R39: who writes what, in a step of ASYNC = 0 (a cycle's record says what its parts did). -/
def Obligations.EachRegisterHasOneWriter : Prop :=
  ∀ s t : State, s.cfg.async = false → step s = .next t →
    ∃ r, t.trace = r :: s.trace ∧
      (s.nextInput.rst = true →
        t.p = 0 ∧ t.acc = 0 ∧ t.ones = 0 ∧ t.ack = false ∧ t.head = 0 ∧ t.tail = 0 ∧ t.count = 0 ∧ t.dropCnt = 0 ∧
        KeepsStorage s t) ∧
      (s.nextInput.rst = false →
        (r.dec = .none → t.p = s.p ∧ t.acc = s.acc ∧ t.ones = s.ones) ∧
        ((∀ v, r.prod ≠ .accept v) → t.tail = s.tail ∧ KeepsStorage s t) ∧
        ((∀ v, r.cons ≠ .hit v) → t.head = s.head) ∧
        ((∀ v, r.prod ≠ .drop v) → t.dropCnt = s.dropCnt) ∧
        t.ack = s.nextInput.evt ∧
        ((∀ v, r.prod ≠ .accept v) → (∀ v, r.cons ≠ .hit v) → t.count = s.count))

/-- R160: with ASYNC = 1 no register is written from both domains: an edge that is none of `clk` leaves the write domain, one
that is none of `clk_r` the read domain, reset or not. -/
def Obligations.ClockDomainsAreSeparate : Prop :=
  ∀ s t : State, s.cfg.async = true → step s = .next t →
    (risesClk s.nextInput.edge = false →
      KeepsDecoder s t ∧ t.dropCnt = s.dropCnt ∧ KeepsStorage s t ∧ KeepsWriteSide s t) ∧
    (risesClkR s.nextInput.edge = false → KeepsReadSide s t)

/-- R143, both variants: `drop_cnt` rises by one, up to 255, in exactly the cycles that drop a byte, and falls only in a reset edge
of `clk`; with ASYNC = 0 a valid frame is dropped exactly when the FIFO is full at the start of the cycle. -/
def Obligations.DropCounterCountsDrops : Prop :=
  ∀ s t : State, step s = .next t →
    ∃ r, t.trace = r :: s.trace ∧
      ((s.nextInput.rst = false ∨ (s.cfg.async = true ∧ risesClk s.nextInput.edge = false)) →
        ((∃ v, r.prod = .drop v) → t.dropCnt = if s.dropCnt = 255 then 255 else s.dropCnt + 1) ∧
        ((∀ v, r.prod ≠ .drop v) → t.dropCnt = s.dropCnt) ∧ s.dropCnt ≤ t.dropCnt ∧
        (s.cfg.async = false → ∀ v, r.dec = .frameOk v → (r.prod = .drop v ↔ s.count = s.cfg.depth)))

/-! ### The cycle function, the queue, the frame -/

/-- R38: with ASYNC = 0 and legal pointers a step is the spec's cycle function, part for part. -/
def Obligations.StepIsTheCycleFunction : Prop :=
  ∀ s : State, s.cfg.async = false → s.SyncInv →
    ∃ t r, step s = .next t ∧ t.trace = r :: s.trace ∧
      let i := s.nextInput
      if i.rst then
        t.p = 0 ∧ t.acc = 0 ∧ t.ones = 0 ∧ t.ack = false ∧ t.head = 0 ∧ t.tail = 0 ∧ t.count = 0 ∧ t.dropCnt = 0 ∧
          KeepsStorage s t ∧ r.rdValid = false
      else
        let d := if i.evt && !s.ack then decoderFunction s.p s.acc s.ones i.dat else (s.p, s.acc, s.ones, none)
        let hit := i.deq && s.count != 0
        let accOk := d.2.2.2.isSome && s.count != s.cfg.depth
        let drop := d.2.2.2.isSome && s.count == s.cfg.depth
        t.ack = i.evt ∧ t.p = d.1 ∧ t.acc = d.2.1 ∧ t.ones = d.2.2.1 ∧
          (∀ a, t.memRead a = if accOk = true ∧ a = s.tail then d.2.2.2.getD 0 else s.memRead a) ∧
          t.tail = (if accOk then (s.tail + 1) % s.cfg.depth else s.tail) ∧
          t.head = (if hit then (s.head + 1) % s.cfg.depth else s.head) ∧
          t.count + hit.toNat = s.count + accOk.toNat ∧
          t.dropCnt = (if drop && s.dropCnt != 255 then s.dropCnt + 1 else s.dropCnt) ∧
          r.rdValid = hit ∧ (hit = true → r.rdData = s.memRead s.head)

/-- R57, R146 and R31, which the spec infers from its rules: with ASYNC = 0 the FIFO is a queue of at most DEPTH bytes. A hit
delivers the oldest byte, an accepted byte, the one of a valid frame, goes behind the newest, a drop happens only with DEPTH
bytes held, and nothing else changes what is held but reset, which empties it. -/
def Obligations.SyncFifoIsABoundedQueue : Prop :=
  ∀ s t : State, s.cfg.async = false → s.SyncInv → step s = .next t →
    ∃ r, t.trace = r :: s.trace ∧
      (s.nextInput.rst = true → t.held = []) ∧
      (s.nextInput.rst = false →
        t.held = queueAfter s.held r.cons r.prod ∧ t.held.length ≤ s.cfg.depth ∧
        (∀ v, r.cons = .hit v → s.held.head? = some v) ∧
        (∀ v, r.prod = .accept v → s.held.length < s.cfg.depth ∧ r.dec = .frameOk v) ∧
        (∀ v, r.prod = .drop v → s.held.length = s.cfg.depth ∧ r.dec = .frameOk v))

/-- R57 and R176, which the spec infers from its rules: with ASYNC = 1, at every edge that some domain takes without reset, the FIFO
is a queue of at most DEPTH bytes, whatever the clocks do and whichever values the synchronisers resolve to: an accepted byte
never overwrites one not yet read, and a hit delivers the oldest. What `AsyncInv` says of a joint reset is log entry 9. -/
def Obligations.AsyncFifoIsABoundedQueue : Prop :=
  ∀ s t : State, LegalConfig s.cfg → s.cfg.async = true → s.AsyncInv →
    ((risesClk s.nextInput.edge = true ∧ s.nextInput.rst = false) ∨
      (risesClkR s.nextInput.edge = true ∧ s.nextInput.rstR = false)) →
    step s = .next t →
    ∃ r, t.trace = r :: s.trace ∧
      t.heldAsync = queueAfter s.heldAsync r.cons r.prod ∧ t.heldAsync.length ≤ s.cfg.depth ∧
      (∀ v, r.cons = .hit v → s.heldAsync.head? = some v) ∧
      (∀ v, r.prod = .accept v → s.heldAsync.length < s.cfg.depth ∧ r.dec = .frameOk v)

/-- R176, which the spec infers: with ASYNC = 1, unless a joint reset has reached one domain alone, `count_w` is never less and
`count_r` never more than the true occupancy, and the occupancy never exceeds DEPTH. -/
def Obligations.EachSidesViewIsConservative : Prop :=
  ∀ s : State, LegalConfig s.cfg → s.cfg.async = true → s.AsyncInv → s.wReset ≠ .pending → s.rReset ≠ .pending →
    let occupancy := ptrDiff s.cfg.depth s.wbin s.rbin
    occupancy ≤ s.countW ∧ s.countR ≤ occupancy ∧ occupancy ≤ s.cfg.depth ∧ s.countW ≤ s.cfg.depth

/-- R164: the formulas of `gray` and `ungray` for AW+1-bit values; they undo each other; consecutive pointers, the wrap
included, differ in exactly one gray bit. -/
def Obligations.GrayCodeChangesOneBit : Prop :=
  ∀ depth b : Nat, b < ptrMod depth →
    gray b = b ^^^ (b >>> 1) ∧ gray b < ptrMod depth ∧ ungray depth (gray b) = b ∧ gray (ungray depth b) = b ∧
    (ungray depth b).testBit (addrW depth) = b.testBit (addrW depth) ∧
    (∀ i, i < addrW depth →
      (ungray depth b).testBit i = ((ungray depth b).testBit (i + 1) ^^ b.testBit i)) ∧
    ∃ k, k ≤ addrW depth ∧ gray b ^^^ gray ((b + 1) % ptrMod depth) = 2 ^ k

/-- R120, which the spec infers from its rules: 11 steps from idle push exactly one byte if the start slot is 0, payload and
parity together are odd and the stop slot is 1, and none otherwise; the byte is the data bits, d0 first, and the decoder ends
idle. So the frame of every byte pushes that byte. -/
def Obligations.FrameIsAcceptedExactlyIfValid : Prop :=
  ∀ s : State, s.p = 0 → s.acc = 0 → s.ones = 0 →
    (∀ (s0 : Bool) (v : Byte) (parity stop : Bool),
      ∃ t pushed, feedSlots (s0 :: (List.range 8).map (fun k => v.getLsbD k) ++ [parity, stop]) s = some (t, pushed) ∧
        (if s0 = false ∧ (popcount v + parity.toNat) % 2 = 1 ∧ stop = true
          then pushed = [v] ∧ t.p = 0 ∧ t.acc = 0 ∧ t.ones = 0
          else pushed = [])) ∧
    ∀ v : Byte, ∃ t, feedSlots (slots v (par v) true) s = some (t, [v])

/-! ### What does not influence what -/

/-- R39, R63: the decoder's registers and outcome depend only on themselves, `ack`, `rst`, `evt` and `dat`: not on the FIFO, its
storage, the drop counter or the consumer (ASYNC = 0). -/
def Obligations.DecoderIgnoresFifoAndConsumer : Prop :=
  ∀ s₁ s₂ t₁ t₂ : State, s₁.cfg.async = false → s₂.cfg.async = false →
    KeepsDecoder s₁ s₂ → s₂.nextInput.rst = s₁.nextInput.rst → s₂.nextInput.evt = s₁.nextInput.evt →
    s₂.nextInput.dat = s₁.nextInput.dat → step s₁ = .next t₁ → step s₂ = .next t₂ →
    KeepsDecoder t₁ t₂ ∧ ∃ r₁ r₂, t₁.trace = r₁ :: s₁.trace ∧ t₂.trace = r₂ :: s₂.trace ∧ r₁.dec = r₂.dec

/-- R140 and decision D8: the producer's decision never depends on the consumer's input of the same cycle (ASYNC = 0). -/
def Obligations.ProducerIgnoresTheConsumer : Prop :=
  ∀ (s t₁ t₂ : State) (i : PortIn) (rest : List Pending), s.cfg.async = false →
    step { s with inputs := .cycle { i with deq := false } :: rest } = .next t₁ →
    step { s with inputs := .cycle { i with deq := true } :: rest } = .next t₂ →
    t₁.tail = t₂.tail ∧ t₁.dropCnt = t₂.dropCnt ∧ KeepsStorage t₁ t₂ ∧ KeepsDecoder t₁ t₂ ∧
    ∃ r₁ r₂, t₁.trace = r₁ :: s.trace ∧ t₂.trace = r₂ :: s.trace ∧ r₁.prod = r₂.prod

/-- R23, which the spec infers: bits 3..1 of `ones` have no effect but on themselves: two states that agree in all but those bits
stop alike, or step to states that agree in all but those bits, outputs and outcomes included. Both variants. -/
def Obligations.OnlyTheParityOfOnesMatters : Prop :=
  ∀ (s : State) (o : Nibble), o.getLsbD 0 = s.ones.getLsbD 0 →
    match step s with
    | .next t => ∃ o', o'.getLsbD 0 = t.ones.getLsbD 0 ∧ step { s with ones := o } = .next { t with ones := o' }
    | .fault f => step { s with ones := o } = .fault f
    | .refused e => step { s with ones := o } = .refused e

/-! ### Waiting -/

/-- R144, BLOCKING_DEQ (ASYNC = 0): on an empty FIFO the consumer asks again and nothing is removed; otherwise it gets the head
byte and is done. -/
def Obligations.BlockingDeqWaitsForAByte : Prop :=
  ∀ (s : State) (rest : List Pending), s.cfg.async = false → s.SyncInv → s.inputs = .blockingDeq :: rest →
    ∃ t r, step s = .next t ∧ t.trace = r :: s.trace ∧
      (s.count = 0 → t.inputs = .blockingDeq :: rest ∧ KeepsSyncFifo s t ∧ r.rdValid = false) ∧
      (s.count ≠ 0 → t.inputs = rest ∧ t.head = (s.head + 1) % s.cfg.depth ∧ t.count + 1 = s.count ∧
        r.rdValid = true ∧ r.rdData = s.memRead s.head)

/-- R123: a partial frame never times out: any number of cycles without an event and without reset leave the decoder where it
is, ready to take the next event as the next slot (ASYNC = 0). -/
def Obligations.PartialFrameNeverTimesOut : Prop :=
  ∀ (k : Nat) (s t : State) (cycles : List PortIn) (rest : List Pending), s.cfg.async = false →
    cycles.length = k → (∀ i ∈ cycles, i.rst = false ∧ i.evt = false) →
    s.inputs = cycles.map .cycle ++ rest → Host.Core.run Sys2Proof.core k s = .next t →
    t.p = s.p ∧ t.acc = s.acc ∧ t.ones = s.ones ∧ t.inputs = rest ∧ (0 < k → t.ack = false)

/-- R165, and law 3 of R175 and R179, which are the spec's decisions: with ASYNC = 1, once the write pointer has rested for
SYNC_STAGES edges of `clk_r`, whatever the consumer does, the read side sees it. -/
def Obligations.SettledWritePointerIsSeen : Prop :=
  ∀ (s : State) (edges : List PortIn) (rest : List Pending), LegalConfig s.cfg → s.cfg.async = true →
    s.PointerInv → MayRun s.cfg.syncStages s.rReset s.wReset false → edges.length = s.cfg.syncStages →
    (∀ i ∈ edges, i.rstR = false ∧ i.edge = .clkR) → s.inputs = edges.map .cycle ++ rest →
    ∃ t, Host.Core.run Sys2Proof.core s.cfg.syncStages s = .next t ∧ t.wseen = s.wbin ∧ t.wbin = s.wbin
end

