-- ==== Sys2Proof/Laws/Memory.lean ====
section
/-! SUPPORT. The laws of the storage: a read after a write gives the byte written, a write leaves every other entry as it was,
and every write keeps the canonical form and the range of the entries listed. -/

namespace Sys2Proof.Machine

/-- A read after a write to the same entry gives the byte written, in any list. -/
theorem Memory.lookup_write_self (m : Memory) (a : Nat) (v : Byte) :
    Memory.lookup (Memory.write m a v) a = some v := by
  induction m with
  | nil => simp [Memory.write, Memory.lookup]
  | cons c m ih =>
    simp only [Memory.write]
    split
    · simp [Memory.lookup]
    · split
      · simp [Memory.lookup]
      · simp [Memory.lookup, *]

/-- A write leaves every other entry as it was, in any list. -/
theorem Memory.lookup_write_ne (m : Memory) {a b : Nat} (v : Byte) (h : b ≠ a) :
    Memory.lookup (Memory.write m a v) b = Memory.lookup m b := by
  induction m with
  | nil => simp [Memory.write, Memory.lookup, h]
  | cons c m ih =>
    simp only [Memory.write]
    split
    · simp [Memory.lookup, h]
    · split
      · simp only [Memory.lookup]
        split <;> simp_all
      · simp [Memory.lookup, ih]

theorem Memory.mem_write {m : Memory} {a : Nat} {v : Byte} {c : Host.Cell} (h : c ∈ Memory.write m a v) :
    c = (a, v) ∨ c ∈ m := by
  induction m with
  | nil => simpa [Memory.write] using h
  | cons d m ih =>
    simp only [Memory.write] at h
    split at h
    · simpa using h
    · split at h
      · simp only [List.mem_cons] at h ⊢
        tauto
      · simp only [List.mem_cons] at h ⊢
        tauto

/-- Every write keeps the canonical form. -/
theorem Memory.wf_write {m : Memory} (a : Nat) (v : Byte) (h : Memory.wf m) : Memory.wf (Memory.write m a v) := by
  induction m with
  | nil => simp [Memory.write, Memory.wf]
  | cons c m ih =>
    obtain ⟨hc, hm⟩ := List.pairwise_cons.1 h
    simp only [Memory.write]
    split
    · rename_i hac
      refine List.pairwise_cons.2 ⟨fun d hd => ?_, h⟩
      rcases List.mem_cons.1 hd with rfl | hd
      · exact hac
      · exact Nat.lt_trans hac (hc d hd)
    · split
      · rename_i _ hac
        subst hac
        exact List.pairwise_cons.2 ⟨fun d hd => hc d hd, hm⟩
      · refine List.pairwise_cons.2 ⟨fun d hd => ?_, ih hm⟩
        rcases Memory.mem_write hd with rfl | hd
        · show c.1 < a
          omega
        · exact hc d hd

/-- A write within DEPTH lists no entry beyond it. -/
theorem Memory.write_below {m : Memory} {a n : Nat} {v : Byte} (ha : a < n) (h : ∀ c ∈ m, c.1 < n) :
    ∀ c ∈ Memory.write m a v, c.1 < n := by
  intro c hc
  rcases Memory.mem_write hc with rfl | hc
  · exact ha
  · exact h c hc

/-- After reset, in any build, the storage lists nothing, and so is in canonical form. -/
theorem Memory.wf_reset (c : Config) : Memory.wf (State.resetWith c).mem := List.Pairwise.nil

theorem State.memRead_memWrite_self (s : State) (i : Nat) (v : Byte) : (s.memWrite i v).memRead i = v := by
  simp [State.memRead, State.memWrite, Memory.lookup_write_self]

theorem State.memRead_memWrite_ne (s : State) {i j : Nat} (v : Byte) (h : j ≠ i) :
    (s.memWrite i v).memRead j = s.memRead j := by
  simp [State.memRead, State.memWrite, Memory.lookup_write_ne _ _ h]

/-- Two states with the same storage read alike. -/
theorem State.memRead_congr {s t : State} (h : t.mem = s.mem) (i : Nat) : t.memRead i = s.memRead i := by
  simp [State.memRead, h]

/-- A state whose storage is another's after a write reads as that one does, but at the entry written. -/
theorem State.memRead_of_write {s t : State} {i : Nat} {v : Byte} (h : t.mem = Memory.write s.mem i v) (j : Nat) :
    t.memRead j = if j = i then v else s.memRead j := by
  split
  · subst j
    simp [State.memRead, h, Memory.lookup_write_self]
  · simp [State.memRead, h, Memory.lookup_write_ne _ _ ‹_›]

end Sys2Proof.Machine
end

