-- ==== Sys2Proof/Laws/State.lean ====
section
/-! SUPPORT. The laws of the named state updates, field by field: what an update writes, and that it leaves every other field as
it was. With them no proof unfolds a record update. -/

namespace Sys2Proof.Machine

variable (s : State)

/-! ### `State.memWrite` -/

@[simp] theorem State.memWrite_cfg (i : Nat) (v : Byte) : (s.memWrite i v).cfg = s.cfg := rfl
@[simp] theorem State.memWrite_p (i : Nat) (v : Byte) : (s.memWrite i v).p = s.p := rfl
@[simp] theorem State.memWrite_acc (i : Nat) (v : Byte) : (s.memWrite i v).acc = s.acc := rfl
@[simp] theorem State.memWrite_ones (i : Nat) (v : Byte) : (s.memWrite i v).ones = s.ones := rfl
@[simp] theorem State.memWrite_ack (i : Nat) (v : Byte) : (s.memWrite i v).ack = s.ack := rfl
@[simp] theorem State.memWrite_mem (i : Nat) (v : Byte) : (s.memWrite i v).mem = Memory.write s.mem i v := rfl
@[simp] theorem State.memWrite_head (i : Nat) (v : Byte) : (s.memWrite i v).head = s.head := rfl
@[simp] theorem State.memWrite_tail (i : Nat) (v : Byte) : (s.memWrite i v).tail = s.tail := rfl
@[simp] theorem State.memWrite_count (i : Nat) (v : Byte) : (s.memWrite i v).count = s.count := rfl
@[simp] theorem State.memWrite_dropCnt (i : Nat) (v : Byte) : (s.memWrite i v).dropCnt = s.dropCnt := rfl
@[simp] theorem State.memWrite_wbin (i : Nat) (v : Byte) : (s.memWrite i v).wbin = s.wbin := rfl
@[simp] theorem State.memWrite_wgray (i : Nat) (v : Byte) : (s.memWrite i v).wgray = s.wgray := rfl
@[simp] theorem State.memWrite_rq (i : Nat) (v : Byte) : (s.memWrite i v).rq = s.rq := rfl
@[simp] theorem State.memWrite_rbin (i : Nat) (v : Byte) : (s.memWrite i v).rbin = s.rbin := rfl
@[simp] theorem State.memWrite_rgray (i : Nat) (v : Byte) : (s.memWrite i v).rgray = s.rgray := rfl
@[simp] theorem State.memWrite_wq (i : Nat) (v : Byte) : (s.memWrite i v).wq = s.wq := rfl
@[simp] theorem State.memWrite_wReset (i : Nat) (v : Byte) : (s.memWrite i v).wReset = s.wReset := rfl
@[simp] theorem State.memWrite_rReset (i : Nat) (v : Byte) : (s.memWrite i v).rReset = s.rReset := rfl
@[simp] theorem State.memWrite_inputs (i : Nat) (v : Byte) : (s.memWrite i v).inputs = s.inputs := rfl
@[simp] theorem State.memWrite_draws (i : Nat) (v : Byte) : (s.memWrite i v).draws = s.draws := rfl
@[simp] theorem State.memWrite_sig (i : Nat) (v : Byte) : (s.memWrite i v).sig = s.sig := rfl
@[simp] theorem State.memWrite_trace (i : Nat) (v : Byte) : (s.memWrite i v).trace = s.trace := rfl

/-! ### `State.handshake` -/

@[simp] theorem State.handshake_cfg : (s.handshake).cfg = s.cfg := rfl
@[simp] theorem State.handshake_p : (s.handshake).p = s.p := rfl
@[simp] theorem State.handshake_acc : (s.handshake).acc = s.acc := rfl
@[simp] theorem State.handshake_ones : (s.handshake).ones = s.ones := rfl
@[simp] theorem State.handshake_ack : (s.handshake).ack = s.sig.inp.evt := rfl
@[simp] theorem State.handshake_mem : (s.handshake).mem = s.mem := rfl
@[simp] theorem State.handshake_head : (s.handshake).head = s.head := rfl
@[simp] theorem State.handshake_tail : (s.handshake).tail = s.tail := rfl
@[simp] theorem State.handshake_count : (s.handshake).count = s.count := rfl
@[simp] theorem State.handshake_dropCnt : (s.handshake).dropCnt = s.dropCnt := rfl
@[simp] theorem State.handshake_wbin : (s.handshake).wbin = s.wbin := rfl
@[simp] theorem State.handshake_wgray : (s.handshake).wgray = s.wgray := rfl
@[simp] theorem State.handshake_rq : (s.handshake).rq = s.rq := rfl
@[simp] theorem State.handshake_rbin : (s.handshake).rbin = s.rbin := rfl
@[simp] theorem State.handshake_rgray : (s.handshake).rgray = s.rgray := rfl
@[simp] theorem State.handshake_wq : (s.handshake).wq = s.wq := rfl
@[simp] theorem State.handshake_wReset : (s.handshake).wReset = s.wReset := rfl
@[simp] theorem State.handshake_rReset : (s.handshake).rReset = s.rReset := rfl
@[simp] theorem State.handshake_inputs : (s.handshake).inputs = s.inputs := rfl
@[simp] theorem State.handshake_draws : (s.handshake).draws = s.draws := rfl
@[simp] theorem State.handshake_sig : (s.handshake).sig = s.sig := rfl
@[simp] theorem State.handshake_trace : (s.handshake).trace = s.trace := rfl
@[simp] theorem State.handshake_memRead (i : Nat) : (s.handshake).memRead i = s.memRead i := rfl

/-! ### `State.setDecoder` -/

@[simp] theorem State.setDecoder_cfg (p : Nibble) (acc : Byte) (ones : Nibble) (o : DecOutcome) : (s.setDecoder p acc ones o).cfg = s.cfg := rfl
@[simp] theorem State.setDecoder_p (p : Nibble) (acc : Byte) (ones : Nibble) (o : DecOutcome) : (s.setDecoder p acc ones o).p = p := rfl
@[simp] theorem State.setDecoder_acc (p : Nibble) (acc : Byte) (ones : Nibble) (o : DecOutcome) : (s.setDecoder p acc ones o).acc = acc := rfl
@[simp] theorem State.setDecoder_ones (p : Nibble) (acc : Byte) (ones : Nibble) (o : DecOutcome) : (s.setDecoder p acc ones o).ones = ones := rfl
@[simp] theorem State.setDecoder_ack (p : Nibble) (acc : Byte) (ones : Nibble) (o : DecOutcome) : (s.setDecoder p acc ones o).ack = s.ack := rfl
@[simp] theorem State.setDecoder_mem (p : Nibble) (acc : Byte) (ones : Nibble) (o : DecOutcome) : (s.setDecoder p acc ones o).mem = s.mem := rfl
@[simp] theorem State.setDecoder_head (p : Nibble) (acc : Byte) (ones : Nibble) (o : DecOutcome) : (s.setDecoder p acc ones o).head = s.head := rfl
@[simp] theorem State.setDecoder_tail (p : Nibble) (acc : Byte) (ones : Nibble) (o : DecOutcome) : (s.setDecoder p acc ones o).tail = s.tail := rfl
@[simp] theorem State.setDecoder_count (p : Nibble) (acc : Byte) (ones : Nibble) (o : DecOutcome) : (s.setDecoder p acc ones o).count = s.count := rfl
@[simp] theorem State.setDecoder_dropCnt (p : Nibble) (acc : Byte) (ones : Nibble) (o : DecOutcome) : (s.setDecoder p acc ones o).dropCnt = s.dropCnt := rfl
@[simp] theorem State.setDecoder_wbin (p : Nibble) (acc : Byte) (ones : Nibble) (o : DecOutcome) : (s.setDecoder p acc ones o).wbin = s.wbin := rfl
@[simp] theorem State.setDecoder_wgray (p : Nibble) (acc : Byte) (ones : Nibble) (o : DecOutcome) : (s.setDecoder p acc ones o).wgray = s.wgray := rfl
@[simp] theorem State.setDecoder_rq (p : Nibble) (acc : Byte) (ones : Nibble) (o : DecOutcome) : (s.setDecoder p acc ones o).rq = s.rq := rfl
@[simp] theorem State.setDecoder_rbin (p : Nibble) (acc : Byte) (ones : Nibble) (o : DecOutcome) : (s.setDecoder p acc ones o).rbin = s.rbin := rfl
@[simp] theorem State.setDecoder_rgray (p : Nibble) (acc : Byte) (ones : Nibble) (o : DecOutcome) : (s.setDecoder p acc ones o).rgray = s.rgray := rfl
@[simp] theorem State.setDecoder_wq (p : Nibble) (acc : Byte) (ones : Nibble) (o : DecOutcome) : (s.setDecoder p acc ones o).wq = s.wq := rfl
@[simp] theorem State.setDecoder_wReset (p : Nibble) (acc : Byte) (ones : Nibble) (o : DecOutcome) : (s.setDecoder p acc ones o).wReset = s.wReset := rfl
@[simp] theorem State.setDecoder_rReset (p : Nibble) (acc : Byte) (ones : Nibble) (o : DecOutcome) : (s.setDecoder p acc ones o).rReset = s.rReset := rfl
@[simp] theorem State.setDecoder_inputs (p : Nibble) (acc : Byte) (ones : Nibble) (o : DecOutcome) : (s.setDecoder p acc ones o).inputs = s.inputs := rfl
@[simp] theorem State.setDecoder_draws (p : Nibble) (acc : Byte) (ones : Nibble) (o : DecOutcome) : (s.setDecoder p acc ones o).draws = s.draws := rfl
@[simp] theorem State.setDecoder_sig (p : Nibble) (acc : Byte) (ones : Nibble) (o : DecOutcome) : (s.setDecoder p acc ones o).sig = { s.sig with push := false, dec := o } := rfl
@[simp] theorem State.setDecoder_trace (p : Nibble) (acc : Byte) (ones : Nibble) (o : DecOutcome) : (s.setDecoder p acc ones o).trace = s.trace := rfl
@[simp] theorem State.setDecoder_memRead (p : Nibble) (acc : Byte) (ones : Nibble) (o : DecOutcome) (i : Nat) : (s.setDecoder p acc ones o).memRead i = s.memRead i := rfl

/-! ### `State.request` -/

@[simp] theorem State.request_cfg (v : Byte) : (s.request v).cfg = s.cfg := rfl
@[simp] theorem State.request_p (v : Byte) : (s.request v).p = s.p := rfl
@[simp] theorem State.request_acc (v : Byte) : (s.request v).acc = s.acc := rfl
@[simp] theorem State.request_ones (v : Byte) : (s.request v).ones = s.ones := rfl
@[simp] theorem State.request_ack (v : Byte) : (s.request v).ack = s.ack := rfl
@[simp] theorem State.request_mem (v : Byte) : (s.request v).mem = s.mem := rfl
@[simp] theorem State.request_head (v : Byte) : (s.request v).head = s.head := rfl
@[simp] theorem State.request_tail (v : Byte) : (s.request v).tail = s.tail := rfl
@[simp] theorem State.request_count (v : Byte) : (s.request v).count = s.count := rfl
@[simp] theorem State.request_dropCnt (v : Byte) : (s.request v).dropCnt = s.dropCnt := rfl
@[simp] theorem State.request_wbin (v : Byte) : (s.request v).wbin = s.wbin := rfl
@[simp] theorem State.request_wgray (v : Byte) : (s.request v).wgray = s.wgray := rfl
@[simp] theorem State.request_rq (v : Byte) : (s.request v).rq = s.rq := rfl
@[simp] theorem State.request_rbin (v : Byte) : (s.request v).rbin = s.rbin := rfl
@[simp] theorem State.request_rgray (v : Byte) : (s.request v).rgray = s.rgray := rfl
@[simp] theorem State.request_wq (v : Byte) : (s.request v).wq = s.wq := rfl
@[simp] theorem State.request_wReset (v : Byte) : (s.request v).wReset = s.wReset := rfl
@[simp] theorem State.request_rReset (v : Byte) : (s.request v).rReset = s.rReset := rfl
@[simp] theorem State.request_inputs (v : Byte) : (s.request v).inputs = s.inputs := rfl
@[simp] theorem State.request_draws (v : Byte) : (s.request v).draws = s.draws := rfl
@[simp] theorem State.request_sig (v : Byte) : (s.request v).sig = { s.sig with push := true, pushv := v } := rfl
@[simp] theorem State.request_trace (v : Byte) : (s.request v).trace = s.trace := rfl
@[simp] theorem State.request_memRead (v : Byte) (i : Nat) : (s.request v).memRead i = s.memRead i := rfl

/-! ### `State.acceptSync` -/

@[simp] theorem State.acceptSync_cfg : (s.acceptSync).cfg = s.cfg := rfl
@[simp] theorem State.acceptSync_p : (s.acceptSync).p = s.p := rfl
@[simp] theorem State.acceptSync_acc : (s.acceptSync).acc = s.acc := rfl
@[simp] theorem State.acceptSync_ones : (s.acceptSync).ones = s.ones := rfl
@[simp] theorem State.acceptSync_ack : (s.acceptSync).ack = s.ack := rfl
@[simp] theorem State.acceptSync_mem : (s.acceptSync).mem = Memory.write s.mem s.tail s.sig.pushv := rfl
@[simp] theorem State.acceptSync_head : (s.acceptSync).head = s.head := rfl
@[simp] theorem State.acceptSync_tail : (s.acceptSync).tail = advance s.cfg.depth s.tail := rfl
@[simp] theorem State.acceptSync_count : (s.acceptSync).count = s.count := rfl
@[simp] theorem State.acceptSync_dropCnt : (s.acceptSync).dropCnt = s.dropCnt := rfl
@[simp] theorem State.acceptSync_wbin : (s.acceptSync).wbin = s.wbin := rfl
@[simp] theorem State.acceptSync_wgray : (s.acceptSync).wgray = s.wgray := rfl
@[simp] theorem State.acceptSync_rq : (s.acceptSync).rq = s.rq := rfl
@[simp] theorem State.acceptSync_rbin : (s.acceptSync).rbin = s.rbin := rfl
@[simp] theorem State.acceptSync_rgray : (s.acceptSync).rgray = s.rgray := rfl
@[simp] theorem State.acceptSync_wq : (s.acceptSync).wq = s.wq := rfl
@[simp] theorem State.acceptSync_wReset : (s.acceptSync).wReset = s.wReset := rfl
@[simp] theorem State.acceptSync_rReset : (s.acceptSync).rReset = s.rReset := rfl
@[simp] theorem State.acceptSync_inputs : (s.acceptSync).inputs = s.inputs := rfl
@[simp] theorem State.acceptSync_draws : (s.acceptSync).draws = s.draws := rfl
@[simp] theorem State.acceptSync_sig : (s.acceptSync).sig = { s.sig with prod := .accept s.sig.pushv } := rfl
@[simp] theorem State.acceptSync_trace : (s.acceptSync).trace = s.trace := rfl

/-! ### `State.dropByte` -/

@[simp] theorem State.dropByte_cfg : (s.dropByte).cfg = s.cfg := rfl
@[simp] theorem State.dropByte_p : (s.dropByte).p = s.p := rfl
@[simp] theorem State.dropByte_acc : (s.dropByte).acc = s.acc := rfl
@[simp] theorem State.dropByte_ones : (s.dropByte).ones = s.ones := rfl
@[simp] theorem State.dropByte_ack : (s.dropByte).ack = s.ack := rfl
@[simp] theorem State.dropByte_mem : (s.dropByte).mem = s.mem := rfl
@[simp] theorem State.dropByte_head : (s.dropByte).head = s.head := rfl
@[simp] theorem State.dropByte_tail : (s.dropByte).tail = s.tail := rfl
@[simp] theorem State.dropByte_count : (s.dropByte).count = s.count := rfl
@[simp] theorem State.dropByte_dropCnt : (s.dropByte).dropCnt = satInc8 s.dropCnt := rfl
@[simp] theorem State.dropByte_wbin : (s.dropByte).wbin = s.wbin := rfl
@[simp] theorem State.dropByte_wgray : (s.dropByte).wgray = s.wgray := rfl
@[simp] theorem State.dropByte_rq : (s.dropByte).rq = s.rq := rfl
@[simp] theorem State.dropByte_rbin : (s.dropByte).rbin = s.rbin := rfl
@[simp] theorem State.dropByte_rgray : (s.dropByte).rgray = s.rgray := rfl
@[simp] theorem State.dropByte_wq : (s.dropByte).wq = s.wq := rfl
@[simp] theorem State.dropByte_wReset : (s.dropByte).wReset = s.wReset := rfl
@[simp] theorem State.dropByte_rReset : (s.dropByte).rReset = s.rReset := rfl
@[simp] theorem State.dropByte_inputs : (s.dropByte).inputs = s.inputs := rfl
@[simp] theorem State.dropByte_draws : (s.dropByte).draws = s.draws := rfl
@[simp] theorem State.dropByte_sig : (s.dropByte).sig = { s.sig with prod := .drop s.sig.pushv } := rfl
@[simp] theorem State.dropByte_trace : (s.dropByte).trace = s.trace := rfl
@[simp] theorem State.dropByte_memRead (i : Nat) : (s.dropByte).memRead i = s.memRead i := rfl

/-! ### `State.noEnqueue` -/

@[simp] theorem State.noEnqueue_cfg : (s.noEnqueue).cfg = s.cfg := rfl
@[simp] theorem State.noEnqueue_p : (s.noEnqueue).p = s.p := rfl
@[simp] theorem State.noEnqueue_acc : (s.noEnqueue).acc = s.acc := rfl
@[simp] theorem State.noEnqueue_ones : (s.noEnqueue).ones = s.ones := rfl
@[simp] theorem State.noEnqueue_ack : (s.noEnqueue).ack = s.ack := rfl
@[simp] theorem State.noEnqueue_mem : (s.noEnqueue).mem = s.mem := rfl
@[simp] theorem State.noEnqueue_head : (s.noEnqueue).head = s.head := rfl
@[simp] theorem State.noEnqueue_tail : (s.noEnqueue).tail = s.tail := rfl
@[simp] theorem State.noEnqueue_count : (s.noEnqueue).count = s.count := rfl
@[simp] theorem State.noEnqueue_dropCnt : (s.noEnqueue).dropCnt = s.dropCnt := rfl
@[simp] theorem State.noEnqueue_wbin : (s.noEnqueue).wbin = s.wbin := rfl
@[simp] theorem State.noEnqueue_wgray : (s.noEnqueue).wgray = s.wgray := rfl
@[simp] theorem State.noEnqueue_rq : (s.noEnqueue).rq = s.rq := rfl
@[simp] theorem State.noEnqueue_rbin : (s.noEnqueue).rbin = s.rbin := rfl
@[simp] theorem State.noEnqueue_rgray : (s.noEnqueue).rgray = s.rgray := rfl
@[simp] theorem State.noEnqueue_wq : (s.noEnqueue).wq = s.wq := rfl
@[simp] theorem State.noEnqueue_wReset : (s.noEnqueue).wReset = s.wReset := rfl
@[simp] theorem State.noEnqueue_rReset : (s.noEnqueue).rReset = s.rReset := rfl
@[simp] theorem State.noEnqueue_inputs : (s.noEnqueue).inputs = s.inputs := rfl
@[simp] theorem State.noEnqueue_draws : (s.noEnqueue).draws = s.draws := rfl
@[simp] theorem State.noEnqueue_sig : (s.noEnqueue).sig = { s.sig with prod := .none } := rfl
@[simp] theorem State.noEnqueue_trace : (s.noEnqueue).trace = s.trace := rfl
@[simp] theorem State.noEnqueue_memRead (i : Nat) : (s.noEnqueue).memRead i = s.memRead i := rfl

/-! ### `State.updateCount` -/

@[simp] theorem State.updateCount_cfg (a h : Bool) : (s.updateCount a h).cfg = s.cfg := rfl
@[simp] theorem State.updateCount_p (a h : Bool) : (s.updateCount a h).p = s.p := rfl
@[simp] theorem State.updateCount_acc (a h : Bool) : (s.updateCount a h).acc = s.acc := rfl
@[simp] theorem State.updateCount_ones (a h : Bool) : (s.updateCount a h).ones = s.ones := rfl
@[simp] theorem State.updateCount_ack (a h : Bool) : (s.updateCount a h).ack = s.ack := rfl
@[simp] theorem State.updateCount_mem (a h : Bool) : (s.updateCount a h).mem = s.mem := rfl
@[simp] theorem State.updateCount_head (a h : Bool) : (s.updateCount a h).head = s.head := rfl
@[simp] theorem State.updateCount_tail (a h : Bool) : (s.updateCount a h).tail = s.tail := rfl
@[simp] theorem State.updateCount_count (a h : Bool) : (s.updateCount a h).count = (s.count + 2 ^ cntW s.cfg.depth + a.toNat - h.toNat) % 2 ^ cntW s.cfg.depth := rfl
@[simp] theorem State.updateCount_dropCnt (a h : Bool) : (s.updateCount a h).dropCnt = s.dropCnt := rfl
@[simp] theorem State.updateCount_wbin (a h : Bool) : (s.updateCount a h).wbin = s.wbin := rfl
@[simp] theorem State.updateCount_wgray (a h : Bool) : (s.updateCount a h).wgray = s.wgray := rfl
@[simp] theorem State.updateCount_rq (a h : Bool) : (s.updateCount a h).rq = s.rq := rfl
@[simp] theorem State.updateCount_rbin (a h : Bool) : (s.updateCount a h).rbin = s.rbin := rfl
@[simp] theorem State.updateCount_rgray (a h : Bool) : (s.updateCount a h).rgray = s.rgray := rfl
@[simp] theorem State.updateCount_wq (a h : Bool) : (s.updateCount a h).wq = s.wq := rfl
@[simp] theorem State.updateCount_wReset (a h : Bool) : (s.updateCount a h).wReset = s.wReset := rfl
@[simp] theorem State.updateCount_rReset (a h : Bool) : (s.updateCount a h).rReset = s.rReset := rfl
@[simp] theorem State.updateCount_inputs (a h : Bool) : (s.updateCount a h).inputs = s.inputs := rfl
@[simp] theorem State.updateCount_draws (a h : Bool) : (s.updateCount a h).draws = s.draws := rfl
@[simp] theorem State.updateCount_sig (a h : Bool) : (s.updateCount a h).sig = s.sig := rfl
@[simp] theorem State.updateCount_trace (a h : Bool) : (s.updateCount a h).trace = s.trace := rfl
@[simp] theorem State.updateCount_memRead (a h : Bool) (i : Nat) : (s.updateCount a h).memRead i = s.memRead i := rfl

/-! ### `State.shiftRq` -/

@[simp] theorem State.shiftRq_cfg : (s.shiftRq).cfg = s.cfg := rfl
@[simp] theorem State.shiftRq_p : (s.shiftRq).p = s.p := rfl
@[simp] theorem State.shiftRq_acc : (s.shiftRq).acc = s.acc := rfl
@[simp] theorem State.shiftRq_ones : (s.shiftRq).ones = s.ones := rfl
@[simp] theorem State.shiftRq_ack : (s.shiftRq).ack = s.ack := rfl
@[simp] theorem State.shiftRq_mem : (s.shiftRq).mem = s.mem := rfl
@[simp] theorem State.shiftRq_head : (s.shiftRq).head = s.head := rfl
@[simp] theorem State.shiftRq_tail : (s.shiftRq).tail = s.tail := rfl
@[simp] theorem State.shiftRq_count : (s.shiftRq).count = s.count := rfl
@[simp] theorem State.shiftRq_dropCnt : (s.shiftRq).dropCnt = s.dropCnt := rfl
@[simp] theorem State.shiftRq_wbin : (s.shiftRq).wbin = s.wbin := rfl
@[simp] theorem State.shiftRq_wgray : (s.shiftRq).wgray = s.wgray := rfl
@[simp] theorem State.shiftRq_rq : (s.shiftRq).rq = shiftIn s.rgray s.rq := rfl
@[simp] theorem State.shiftRq_rbin : (s.shiftRq).rbin = s.rbin := rfl
@[simp] theorem State.shiftRq_rgray : (s.shiftRq).rgray = s.rgray := rfl
@[simp] theorem State.shiftRq_wq : (s.shiftRq).wq = s.wq := rfl
@[simp] theorem State.shiftRq_wReset : (s.shiftRq).wReset = s.wReset := rfl
@[simp] theorem State.shiftRq_rReset : (s.shiftRq).rReset = s.rReset := rfl
@[simp] theorem State.shiftRq_inputs : (s.shiftRq).inputs = s.inputs := rfl
@[simp] theorem State.shiftRq_draws : (s.shiftRq).draws = s.draws := rfl
@[simp] theorem State.shiftRq_sig : (s.shiftRq).sig = s.sig := rfl
@[simp] theorem State.shiftRq_trace : (s.shiftRq).trace = s.trace := rfl
@[simp] theorem State.shiftRq_memRead (i : Nat) : (s.shiftRq).memRead i = s.memRead i := rfl

/-! ### `State.shiftWq` -/

@[simp] theorem State.shiftWq_cfg : (s.shiftWq).cfg = s.cfg := rfl
@[simp] theorem State.shiftWq_p : (s.shiftWq).p = s.p := rfl
@[simp] theorem State.shiftWq_acc : (s.shiftWq).acc = s.acc := rfl
@[simp] theorem State.shiftWq_ones : (s.shiftWq).ones = s.ones := rfl
@[simp] theorem State.shiftWq_ack : (s.shiftWq).ack = s.ack := rfl
@[simp] theorem State.shiftWq_mem : (s.shiftWq).mem = s.mem := rfl
@[simp] theorem State.shiftWq_head : (s.shiftWq).head = s.head := rfl
@[simp] theorem State.shiftWq_tail : (s.shiftWq).tail = s.tail := rfl
@[simp] theorem State.shiftWq_count : (s.shiftWq).count = s.count := rfl
@[simp] theorem State.shiftWq_dropCnt : (s.shiftWq).dropCnt = s.dropCnt := rfl
@[simp] theorem State.shiftWq_wbin : (s.shiftWq).wbin = s.wbin := rfl
@[simp] theorem State.shiftWq_wgray : (s.shiftWq).wgray = s.wgray := rfl
@[simp] theorem State.shiftWq_rq : (s.shiftWq).rq = s.rq := rfl
@[simp] theorem State.shiftWq_rbin : (s.shiftWq).rbin = s.rbin := rfl
@[simp] theorem State.shiftWq_rgray : (s.shiftWq).rgray = s.rgray := rfl
@[simp] theorem State.shiftWq_wq : (s.shiftWq).wq = shiftIn s.wgray s.wq := rfl
@[simp] theorem State.shiftWq_wReset : (s.shiftWq).wReset = s.wReset := rfl
@[simp] theorem State.shiftWq_rReset : (s.shiftWq).rReset = s.rReset := rfl
@[simp] theorem State.shiftWq_inputs : (s.shiftWq).inputs = s.inputs := rfl
@[simp] theorem State.shiftWq_draws : (s.shiftWq).draws = s.draws := rfl
@[simp] theorem State.shiftWq_sig : (s.shiftWq).sig = s.sig := rfl
@[simp] theorem State.shiftWq_trace : (s.shiftWq).trace = s.trace := rfl
@[simp] theorem State.shiftWq_memRead (i : Nat) : (s.shiftWq).memRead i = s.memRead i := rfl

/-! ### `State.acceptAsync` -/

@[simp] theorem State.acceptAsync_cfg : (s.acceptAsync).cfg = s.cfg := rfl
@[simp] theorem State.acceptAsync_p : (s.acceptAsync).p = s.p := rfl
@[simp] theorem State.acceptAsync_acc : (s.acceptAsync).acc = s.acc := rfl
@[simp] theorem State.acceptAsync_ones : (s.acceptAsync).ones = s.ones := rfl
@[simp] theorem State.acceptAsync_ack : (s.acceptAsync).ack = s.ack := rfl
@[simp] theorem State.acceptAsync_mem : (s.acceptAsync).mem = Memory.write s.mem s.writeIndex s.sig.pushv := rfl
@[simp] theorem State.acceptAsync_head : (s.acceptAsync).head = s.head := rfl
@[simp] theorem State.acceptAsync_tail : (s.acceptAsync).tail = s.tail := rfl
@[simp] theorem State.acceptAsync_count : (s.acceptAsync).count = s.count := rfl
@[simp] theorem State.acceptAsync_dropCnt : (s.acceptAsync).dropCnt = s.dropCnt := rfl
@[simp] theorem State.acceptAsync_wbin : (s.acceptAsync).wbin = (s.wbin + 1) % ptrMod s.cfg.depth := rfl
@[simp] theorem State.acceptAsync_wgray : (s.acceptAsync).wgray = gray ((s.wbin + 1) % ptrMod s.cfg.depth) := rfl
@[simp] theorem State.acceptAsync_rq : (s.acceptAsync).rq = s.rq := rfl
@[simp] theorem State.acceptAsync_rbin : (s.acceptAsync).rbin = s.rbin := rfl
@[simp] theorem State.acceptAsync_rgray : (s.acceptAsync).rgray = s.rgray := rfl
@[simp] theorem State.acceptAsync_wq : (s.acceptAsync).wq = s.wq := rfl
@[simp] theorem State.acceptAsync_wReset : (s.acceptAsync).wReset = s.wReset := rfl
@[simp] theorem State.acceptAsync_rReset : (s.acceptAsync).rReset = s.rReset := rfl
@[simp] theorem State.acceptAsync_inputs : (s.acceptAsync).inputs = s.inputs := rfl
@[simp] theorem State.acceptAsync_draws : (s.acceptAsync).draws = s.draws := rfl
@[simp] theorem State.acceptAsync_sig : (s.acceptAsync).sig = { s.sig with prod := .accept s.sig.pushv } := rfl
@[simp] theorem State.acceptAsync_trace : (s.acceptAsync).trace = s.trace := rfl

/-! ### `State.advanceRead` -/

@[simp] theorem State.advanceRead_cfg : (s.advanceRead).cfg = s.cfg := rfl
@[simp] theorem State.advanceRead_p : (s.advanceRead).p = s.p := rfl
@[simp] theorem State.advanceRead_acc : (s.advanceRead).acc = s.acc := rfl
@[simp] theorem State.advanceRead_ones : (s.advanceRead).ones = s.ones := rfl
@[simp] theorem State.advanceRead_ack : (s.advanceRead).ack = s.ack := rfl
@[simp] theorem State.advanceRead_mem : (s.advanceRead).mem = s.mem := rfl
@[simp] theorem State.advanceRead_head : (s.advanceRead).head = s.head := rfl
@[simp] theorem State.advanceRead_tail : (s.advanceRead).tail = s.tail := rfl
@[simp] theorem State.advanceRead_count : (s.advanceRead).count = s.count := rfl
@[simp] theorem State.advanceRead_dropCnt : (s.advanceRead).dropCnt = s.dropCnt := rfl
@[simp] theorem State.advanceRead_wbin : (s.advanceRead).wbin = s.wbin := rfl
@[simp] theorem State.advanceRead_wgray : (s.advanceRead).wgray = s.wgray := rfl
@[simp] theorem State.advanceRead_rq : (s.advanceRead).rq = s.rq := rfl
@[simp] theorem State.advanceRead_rbin : (s.advanceRead).rbin = (s.rbin + 1) % ptrMod s.cfg.depth := rfl
@[simp] theorem State.advanceRead_rgray : (s.advanceRead).rgray = gray ((s.rbin + 1) % ptrMod s.cfg.depth) := rfl
@[simp] theorem State.advanceRead_wq : (s.advanceRead).wq = s.wq := rfl
@[simp] theorem State.advanceRead_wReset : (s.advanceRead).wReset = s.wReset := rfl
@[simp] theorem State.advanceRead_rReset : (s.advanceRead).rReset = s.rReset := rfl
@[simp] theorem State.advanceRead_inputs : (s.advanceRead).inputs = s.inputs := rfl
@[simp] theorem State.advanceRead_draws : (s.advanceRead).draws = s.draws := rfl
@[simp] theorem State.advanceRead_sig : (s.advanceRead).sig = s.sig := rfl
@[simp] theorem State.advanceRead_trace : (s.advanceRead).trace = s.trace := rfl
@[simp] theorem State.advanceRead_memRead (i : Nat) : (s.advanceRead).memRead i = s.memRead i := rfl

/-! ### `State.resolveStage1` -/

@[simp] theorem State.resolveStage1_cfg (old : State) : (s.resolveStage1 old).cfg = s.cfg := rfl
@[simp] theorem State.resolveStage1_p (old : State) : (s.resolveStage1 old).p = s.p := rfl
@[simp] theorem State.resolveStage1_acc (old : State) : (s.resolveStage1 old).acc = s.acc := rfl
@[simp] theorem State.resolveStage1_ones (old : State) : (s.resolveStage1 old).ones = s.ones := rfl
@[simp] theorem State.resolveStage1_ack (old : State) : (s.resolveStage1 old).ack = s.ack := rfl
@[simp] theorem State.resolveStage1_mem (old : State) : (s.resolveStage1 old).mem = s.mem := rfl
@[simp] theorem State.resolveStage1_head (old : State) : (s.resolveStage1 old).head = s.head := rfl
@[simp] theorem State.resolveStage1_tail (old : State) : (s.resolveStage1 old).tail = s.tail := rfl
@[simp] theorem State.resolveStage1_count (old : State) : (s.resolveStage1 old).count = s.count := rfl
@[simp] theorem State.resolveStage1_dropCnt (old : State) : (s.resolveStage1 old).dropCnt = s.dropCnt := rfl
@[simp] theorem State.resolveStage1_wbin (old : State) : (s.resolveStage1 old).wbin = s.wbin := rfl
@[simp] theorem State.resolveStage1_wgray (old : State) : (s.resolveStage1 old).wgray = s.wgray := rfl
@[simp] theorem State.resolveStage1_rbin (old : State) : (s.resolveStage1 old).rbin = s.rbin := rfl
@[simp] theorem State.resolveStage1_rgray (old : State) : (s.resolveStage1 old).rgray = s.rgray := rfl
@[simp] theorem State.resolveStage1_wReset (old : State) : (s.resolveStage1 old).wReset = s.wReset := rfl
@[simp] theorem State.resolveStage1_rReset (old : State) : (s.resolveStage1 old).rReset = s.rReset := rfl
@[simp] theorem State.resolveStage1_inputs (old : State) : (s.resolveStage1 old).inputs = s.inputs := rfl
@[simp] theorem State.resolveStage1_draws (old : State) : (s.resolveStage1 old).draws = s.draws := rfl
@[simp] theorem State.resolveStage1_sig (old : State) : (s.resolveStage1 old).sig = s.sig := rfl
@[simp] theorem State.resolveStage1_trace (old : State) : (s.resolveStage1 old).trace = s.trace := rfl
@[simp] theorem State.resolveStage1_memRead (old : State) (i : Nat) : (s.resolveStage1 old).memRead i = s.memRead i := rfl

/-! ### `State.trackReset` -/

@[simp] theorem State.trackReset_cfg : (s.trackReset).cfg = s.cfg := rfl
@[simp] theorem State.trackReset_p : (s.trackReset).p = s.p := rfl
@[simp] theorem State.trackReset_acc : (s.trackReset).acc = s.acc := rfl
@[simp] theorem State.trackReset_ones : (s.trackReset).ones = s.ones := rfl
@[simp] theorem State.trackReset_ack : (s.trackReset).ack = s.ack := rfl
@[simp] theorem State.trackReset_mem : (s.trackReset).mem = s.mem := rfl
@[simp] theorem State.trackReset_head : (s.trackReset).head = s.head := rfl
@[simp] theorem State.trackReset_tail : (s.trackReset).tail = s.tail := rfl
@[simp] theorem State.trackReset_count : (s.trackReset).count = s.count := rfl
@[simp] theorem State.trackReset_dropCnt : (s.trackReset).dropCnt = s.dropCnt := rfl
@[simp] theorem State.trackReset_wbin : (s.trackReset).wbin = s.wbin := rfl
@[simp] theorem State.trackReset_wgray : (s.trackReset).wgray = s.wgray := rfl
@[simp] theorem State.trackReset_rq : (s.trackReset).rq = s.rq := rfl
@[simp] theorem State.trackReset_rbin : (s.trackReset).rbin = s.rbin := rfl
@[simp] theorem State.trackReset_rgray : (s.trackReset).rgray = s.rgray := rfl
@[simp] theorem State.trackReset_wq : (s.trackReset).wq = s.wq := rfl
@[simp] theorem State.trackReset_wReset : (s.trackReset).wReset = resetAfter s.wReset s.rReset s.writeResets s.writeRuns s.readResets := rfl
@[simp] theorem State.trackReset_rReset : (s.trackReset).rReset = resetAfter s.rReset s.wReset s.readResets s.readRuns s.writeResets := rfl
@[simp] theorem State.trackReset_inputs : (s.trackReset).inputs = s.inputs := rfl
@[simp] theorem State.trackReset_draws : (s.trackReset).draws = s.draws := rfl
@[simp] theorem State.trackReset_sig : (s.trackReset).sig = s.sig := rfl
@[simp] theorem State.trackReset_trace : (s.trackReset).trace = s.trace := rfl
@[simp] theorem State.trackReset_memRead (i : Nat) : (s.trackReset).memRead i = s.memRead i := rfl

/-! ### `State.resetProducer` -/

@[simp] theorem State.resetProducer_cfg : (s.resetProducer).cfg = s.cfg := rfl
@[simp] theorem State.resetProducer_p : (s.resetProducer).p = 0 := rfl
@[simp] theorem State.resetProducer_acc : (s.resetProducer).acc = 0 := rfl
@[simp] theorem State.resetProducer_ones : (s.resetProducer).ones = 0 := rfl
@[simp] theorem State.resetProducer_ack : (s.resetProducer).ack = false := rfl
@[simp] theorem State.resetProducer_mem : (s.resetProducer).mem = s.mem := rfl
@[simp] theorem State.resetProducer_head : (s.resetProducer).head = s.head := rfl
@[simp] theorem State.resetProducer_tail : (s.resetProducer).tail = s.tail := rfl
@[simp] theorem State.resetProducer_count : (s.resetProducer).count = s.count := rfl
@[simp] theorem State.resetProducer_dropCnt : (s.resetProducer).dropCnt = 0 := rfl
@[simp] theorem State.resetProducer_wbin : (s.resetProducer).wbin = s.wbin := rfl
@[simp] theorem State.resetProducer_wgray : (s.resetProducer).wgray = s.wgray := rfl
@[simp] theorem State.resetProducer_rq : (s.resetProducer).rq = s.rq := rfl
@[simp] theorem State.resetProducer_rbin : (s.resetProducer).rbin = s.rbin := rfl
@[simp] theorem State.resetProducer_rgray : (s.resetProducer).rgray = s.rgray := rfl
@[simp] theorem State.resetProducer_wq : (s.resetProducer).wq = s.wq := rfl
@[simp] theorem State.resetProducer_wReset : (s.resetProducer).wReset = s.wReset := rfl
@[simp] theorem State.resetProducer_rReset : (s.resetProducer).rReset = s.rReset := rfl
@[simp] theorem State.resetProducer_inputs : (s.resetProducer).inputs = s.inputs := rfl
@[simp] theorem State.resetProducer_draws : (s.resetProducer).draws = s.draws := rfl
@[simp] theorem State.resetProducer_sig : (s.resetProducer).sig = { s.sig with push := false, dec := .none, prod := .none } := rfl
@[simp] theorem State.resetProducer_trace : (s.resetProducer).trace = s.trace := rfl
@[simp] theorem State.resetProducer_memRead (i : Nat) : (s.resetProducer).memRead i = s.memRead i := rfl

/-! ### `State.portIdle` -/

@[simp] theorem State.portIdle_cfg (v : Byte) : (s.portIdle v).cfg = s.cfg := rfl
@[simp] theorem State.portIdle_p (v : Byte) : (s.portIdle v).p = s.p := rfl
@[simp] theorem State.portIdle_acc (v : Byte) : (s.portIdle v).acc = s.acc := rfl
@[simp] theorem State.portIdle_ones (v : Byte) : (s.portIdle v).ones = s.ones := rfl
@[simp] theorem State.portIdle_ack (v : Byte) : (s.portIdle v).ack = s.ack := rfl
@[simp] theorem State.portIdle_mem (v : Byte) : (s.portIdle v).mem = s.mem := rfl
@[simp] theorem State.portIdle_head (v : Byte) : (s.portIdle v).head = s.head := rfl
@[simp] theorem State.portIdle_tail (v : Byte) : (s.portIdle v).tail = s.tail := rfl
@[simp] theorem State.portIdle_count (v : Byte) : (s.portIdle v).count = s.count := rfl
@[simp] theorem State.portIdle_dropCnt (v : Byte) : (s.portIdle v).dropCnt = s.dropCnt := rfl
@[simp] theorem State.portIdle_wbin (v : Byte) : (s.portIdle v).wbin = s.wbin := rfl
@[simp] theorem State.portIdle_wgray (v : Byte) : (s.portIdle v).wgray = s.wgray := rfl
@[simp] theorem State.portIdle_rq (v : Byte) : (s.portIdle v).rq = s.rq := rfl
@[simp] theorem State.portIdle_rbin (v : Byte) : (s.portIdle v).rbin = s.rbin := rfl
@[simp] theorem State.portIdle_rgray (v : Byte) : (s.portIdle v).rgray = s.rgray := rfl
@[simp] theorem State.portIdle_wq (v : Byte) : (s.portIdle v).wq = s.wq := rfl
@[simp] theorem State.portIdle_wReset (v : Byte) : (s.portIdle v).wReset = s.wReset := rfl
@[simp] theorem State.portIdle_rReset (v : Byte) : (s.portIdle v).rReset = s.rReset := rfl
@[simp] theorem State.portIdle_inputs (v : Byte) : (s.portIdle v).inputs = s.inputs := rfl
@[simp] theorem State.portIdle_draws (v : Byte) : (s.portIdle v).draws = s.draws := rfl
@[simp] theorem State.portIdle_sig (v : Byte) : (s.portIdle v).sig = { s.sig with rdValid := false, rdData := v, cons := .none } := rfl
@[simp] theorem State.portIdle_trace (v : Byte) : (s.portIdle v).trace = s.trace := rfl
@[simp] theorem State.portIdle_memRead (v : Byte) (i : Nat) : (s.portIdle v).memRead i = s.memRead i := rfl

/-! ### `State.portHit` -/

@[simp] theorem State.portHit_cfg (v : Byte) : (s.portHit v).cfg = s.cfg := rfl
@[simp] theorem State.portHit_p (v : Byte) : (s.portHit v).p = s.p := rfl
@[simp] theorem State.portHit_acc (v : Byte) : (s.portHit v).acc = s.acc := rfl
@[simp] theorem State.portHit_ones (v : Byte) : (s.portHit v).ones = s.ones := rfl
@[simp] theorem State.portHit_ack (v : Byte) : (s.portHit v).ack = s.ack := rfl
@[simp] theorem State.portHit_mem (v : Byte) : (s.portHit v).mem = s.mem := rfl
@[simp] theorem State.portHit_head (v : Byte) : (s.portHit v).head = s.head := rfl
@[simp] theorem State.portHit_tail (v : Byte) : (s.portHit v).tail = s.tail := rfl
@[simp] theorem State.portHit_count (v : Byte) : (s.portHit v).count = s.count := rfl
@[simp] theorem State.portHit_dropCnt (v : Byte) : (s.portHit v).dropCnt = s.dropCnt := rfl
@[simp] theorem State.portHit_wbin (v : Byte) : (s.portHit v).wbin = s.wbin := rfl
@[simp] theorem State.portHit_wgray (v : Byte) : (s.portHit v).wgray = s.wgray := rfl
@[simp] theorem State.portHit_rq (v : Byte) : (s.portHit v).rq = s.rq := rfl
@[simp] theorem State.portHit_rbin (v : Byte) : (s.portHit v).rbin = s.rbin := rfl
@[simp] theorem State.portHit_rgray (v : Byte) : (s.portHit v).rgray = s.rgray := rfl
@[simp] theorem State.portHit_wq (v : Byte) : (s.portHit v).wq = s.wq := rfl
@[simp] theorem State.portHit_wReset (v : Byte) : (s.portHit v).wReset = s.wReset := rfl
@[simp] theorem State.portHit_rReset (v : Byte) : (s.portHit v).rReset = s.rReset := rfl
@[simp] theorem State.portHit_inputs (v : Byte) : (s.portHit v).inputs = s.inputs := rfl
@[simp] theorem State.portHit_draws (v : Byte) : (s.portHit v).draws = s.draws := rfl
@[simp] theorem State.portHit_sig (v : Byte) : (s.portHit v).sig = { s.sig with rdValid := true, rdData := v, cons := .hit v } := rfl
@[simp] theorem State.portHit_trace (v : Byte) : (s.portHit v).trace = s.trace := rfl
@[simp] theorem State.portHit_memRead (v : Byte) (i : Nat) : (s.portHit v).memRead i = s.memRead i := rfl

/-! ### `State.portMiss` -/

@[simp] theorem State.portMiss_cfg : (s.portMiss).cfg = s.cfg := rfl
@[simp] theorem State.portMiss_p : (s.portMiss).p = s.p := rfl
@[simp] theorem State.portMiss_acc : (s.portMiss).acc = s.acc := rfl
@[simp] theorem State.portMiss_ones : (s.portMiss).ones = s.ones := rfl
@[simp] theorem State.portMiss_ack : (s.portMiss).ack = s.ack := rfl
@[simp] theorem State.portMiss_mem : (s.portMiss).mem = s.mem := rfl
@[simp] theorem State.portMiss_head : (s.portMiss).head = s.head := rfl
@[simp] theorem State.portMiss_tail : (s.portMiss).tail = s.tail := rfl
@[simp] theorem State.portMiss_count : (s.portMiss).count = s.count := rfl
@[simp] theorem State.portMiss_dropCnt : (s.portMiss).dropCnt = s.dropCnt := rfl
@[simp] theorem State.portMiss_wbin : (s.portMiss).wbin = s.wbin := rfl
@[simp] theorem State.portMiss_wgray : (s.portMiss).wgray = s.wgray := rfl
@[simp] theorem State.portMiss_rq : (s.portMiss).rq = s.rq := rfl
@[simp] theorem State.portMiss_rbin : (s.portMiss).rbin = s.rbin := rfl
@[simp] theorem State.portMiss_rgray : (s.portMiss).rgray = s.rgray := rfl
@[simp] theorem State.portMiss_wq : (s.portMiss).wq = s.wq := rfl
@[simp] theorem State.portMiss_wReset : (s.portMiss).wReset = s.wReset := rfl
@[simp] theorem State.portMiss_rReset : (s.portMiss).rReset = s.rReset := rfl
@[simp] theorem State.portMiss_inputs : (s.portMiss).inputs = s.inputs := rfl
@[simp] theorem State.portMiss_draws : (s.portMiss).draws = s.draws := rfl
@[simp] theorem State.portMiss_sig : (s.portMiss).sig = { s.sig with rdValid := false, rdData := Config.emptyReadByte s.draws, cons := .miss } := rfl
@[simp] theorem State.portMiss_trace : (s.portMiss).trace = s.trace := rfl
@[simp] theorem State.portMiss_memRead (i : Nat) : (s.portMiss).memRead i = s.memRead i := rfl

/-! ### `State.hitSync` -/

@[simp] theorem State.hitSync_cfg : (s.hitSync).cfg = s.cfg := rfl
@[simp] theorem State.hitSync_p : (s.hitSync).p = s.p := rfl
@[simp] theorem State.hitSync_acc : (s.hitSync).acc = s.acc := rfl
@[simp] theorem State.hitSync_ones : (s.hitSync).ones = s.ones := rfl
@[simp] theorem State.hitSync_ack : (s.hitSync).ack = s.ack := rfl
@[simp] theorem State.hitSync_mem : (s.hitSync).mem = s.mem := rfl
@[simp] theorem State.hitSync_head : (s.hitSync).head = advance s.cfg.depth s.head := rfl
@[simp] theorem State.hitSync_tail : (s.hitSync).tail = s.tail := rfl
@[simp] theorem State.hitSync_count : (s.hitSync).count = s.count := rfl
@[simp] theorem State.hitSync_dropCnt : (s.hitSync).dropCnt = s.dropCnt := rfl
@[simp] theorem State.hitSync_wbin : (s.hitSync).wbin = s.wbin := rfl
@[simp] theorem State.hitSync_wgray : (s.hitSync).wgray = s.wgray := rfl
@[simp] theorem State.hitSync_rq : (s.hitSync).rq = s.rq := rfl
@[simp] theorem State.hitSync_rbin : (s.hitSync).rbin = s.rbin := rfl
@[simp] theorem State.hitSync_rgray : (s.hitSync).rgray = s.rgray := rfl
@[simp] theorem State.hitSync_wq : (s.hitSync).wq = s.wq := rfl
@[simp] theorem State.hitSync_wReset : (s.hitSync).wReset = s.wReset := rfl
@[simp] theorem State.hitSync_rReset : (s.hitSync).rReset = s.rReset := rfl
@[simp] theorem State.hitSync_inputs : (s.hitSync).inputs = s.inputs := rfl
@[simp] theorem State.hitSync_draws : (s.hitSync).draws = s.draws := rfl
@[simp] theorem State.hitSync_sig : (s.hitSync).sig = { s.sig with rdValid := true, rdData := s.memRead s.head, cons := .hit (s.memRead s.head) } := rfl
@[simp] theorem State.hitSync_trace : (s.hitSync).trace = s.trace := rfl
@[simp] theorem State.hitSync_memRead (i : Nat) : (s.hitSync).memRead i = s.memRead i := rfl

/-! ### `State.resetDecoder` -/

@[simp] theorem State.resetDecoder_cfg : (s.resetDecoder).cfg = s.cfg := rfl
@[simp] theorem State.resetDecoder_p : (s.resetDecoder).p = 0 := rfl
@[simp] theorem State.resetDecoder_acc : (s.resetDecoder).acc = 0 := rfl
@[simp] theorem State.resetDecoder_ones : (s.resetDecoder).ones = 0 := rfl
@[simp] theorem State.resetDecoder_ack : (s.resetDecoder).ack = false := rfl
@[simp] theorem State.resetDecoder_mem : (s.resetDecoder).mem = s.mem := rfl
@[simp] theorem State.resetDecoder_head : (s.resetDecoder).head = s.head := rfl
@[simp] theorem State.resetDecoder_tail : (s.resetDecoder).tail = s.tail := rfl
@[simp] theorem State.resetDecoder_count : (s.resetDecoder).count = s.count := rfl
@[simp] theorem State.resetDecoder_dropCnt : (s.resetDecoder).dropCnt = 0 := rfl
@[simp] theorem State.resetDecoder_wbin : (s.resetDecoder).wbin = s.wbin := rfl
@[simp] theorem State.resetDecoder_wgray : (s.resetDecoder).wgray = s.wgray := rfl
@[simp] theorem State.resetDecoder_rq : (s.resetDecoder).rq = s.rq := rfl
@[simp] theorem State.resetDecoder_rbin : (s.resetDecoder).rbin = s.rbin := rfl
@[simp] theorem State.resetDecoder_rgray : (s.resetDecoder).rgray = s.rgray := rfl
@[simp] theorem State.resetDecoder_wq : (s.resetDecoder).wq = s.wq := rfl
@[simp] theorem State.resetDecoder_wReset : (s.resetDecoder).wReset = s.wReset := rfl
@[simp] theorem State.resetDecoder_rReset : (s.resetDecoder).rReset = s.rReset := rfl
@[simp] theorem State.resetDecoder_inputs : (s.resetDecoder).inputs = s.inputs := rfl
@[simp] theorem State.resetDecoder_draws : (s.resetDecoder).draws = s.draws := rfl
@[simp] theorem State.resetDecoder_sig : (s.resetDecoder).sig = s.sig := rfl
@[simp] theorem State.resetDecoder_trace : (s.resetDecoder).trace = s.trace := rfl
@[simp] theorem State.resetDecoder_memRead (i : Nat) : (s.resetDecoder).memRead i = s.memRead i := rfl

/-! ### `State.resetSyncFifo` -/

@[simp] theorem State.resetSyncFifo_cfg : (s.resetSyncFifo).cfg = s.cfg := rfl
@[simp] theorem State.resetSyncFifo_p : (s.resetSyncFifo).p = s.p := rfl
@[simp] theorem State.resetSyncFifo_acc : (s.resetSyncFifo).acc = s.acc := rfl
@[simp] theorem State.resetSyncFifo_ones : (s.resetSyncFifo).ones = s.ones := rfl
@[simp] theorem State.resetSyncFifo_ack : (s.resetSyncFifo).ack = s.ack := rfl
@[simp] theorem State.resetSyncFifo_mem : (s.resetSyncFifo).mem = s.mem := rfl
@[simp] theorem State.resetSyncFifo_head : (s.resetSyncFifo).head = 0 := rfl
@[simp] theorem State.resetSyncFifo_tail : (s.resetSyncFifo).tail = 0 := rfl
@[simp] theorem State.resetSyncFifo_count : (s.resetSyncFifo).count = 0 := rfl
@[simp] theorem State.resetSyncFifo_dropCnt : (s.resetSyncFifo).dropCnt = s.dropCnt := rfl
@[simp] theorem State.resetSyncFifo_wbin : (s.resetSyncFifo).wbin = s.wbin := rfl
@[simp] theorem State.resetSyncFifo_wgray : (s.resetSyncFifo).wgray = s.wgray := rfl
@[simp] theorem State.resetSyncFifo_rq : (s.resetSyncFifo).rq = s.rq := rfl
@[simp] theorem State.resetSyncFifo_rbin : (s.resetSyncFifo).rbin = s.rbin := rfl
@[simp] theorem State.resetSyncFifo_rgray : (s.resetSyncFifo).rgray = s.rgray := rfl
@[simp] theorem State.resetSyncFifo_wq : (s.resetSyncFifo).wq = s.wq := rfl
@[simp] theorem State.resetSyncFifo_wReset : (s.resetSyncFifo).wReset = s.wReset := rfl
@[simp] theorem State.resetSyncFifo_rReset : (s.resetSyncFifo).rReset = s.rReset := rfl
@[simp] theorem State.resetSyncFifo_inputs : (s.resetSyncFifo).inputs = s.inputs := rfl
@[simp] theorem State.resetSyncFifo_draws : (s.resetSyncFifo).draws = s.draws := rfl
@[simp] theorem State.resetSyncFifo_sig : (s.resetSyncFifo).sig = s.sig := rfl
@[simp] theorem State.resetSyncFifo_trace : (s.resetSyncFifo).trace = s.trace := rfl
@[simp] theorem State.resetSyncFifo_memRead (i : Nat) : (s.resetSyncFifo).memRead i = s.memRead i := rfl

/-! ### `State.resetWriteSide` -/

@[simp] theorem State.resetWriteSide_cfg : (s.resetWriteSide).cfg = s.cfg := rfl
@[simp] theorem State.resetWriteSide_p : (s.resetWriteSide).p = s.p := rfl
@[simp] theorem State.resetWriteSide_acc : (s.resetWriteSide).acc = s.acc := rfl
@[simp] theorem State.resetWriteSide_ones : (s.resetWriteSide).ones = s.ones := rfl
@[simp] theorem State.resetWriteSide_ack : (s.resetWriteSide).ack = s.ack := rfl
@[simp] theorem State.resetWriteSide_mem : (s.resetWriteSide).mem = s.mem := rfl
@[simp] theorem State.resetWriteSide_head : (s.resetWriteSide).head = s.head := rfl
@[simp] theorem State.resetWriteSide_tail : (s.resetWriteSide).tail = s.tail := rfl
@[simp] theorem State.resetWriteSide_count : (s.resetWriteSide).count = s.count := rfl
@[simp] theorem State.resetWriteSide_dropCnt : (s.resetWriteSide).dropCnt = s.dropCnt := rfl
@[simp] theorem State.resetWriteSide_wbin : (s.resetWriteSide).wbin = 0 := rfl
@[simp] theorem State.resetWriteSide_wgray : (s.resetWriteSide).wgray = 0 := rfl
@[simp] theorem State.resetWriteSide_rq : (s.resetWriteSide).rq = List.replicate s.cfg.syncStages 0 := rfl
@[simp] theorem State.resetWriteSide_rbin : (s.resetWriteSide).rbin = s.rbin := rfl
@[simp] theorem State.resetWriteSide_rgray : (s.resetWriteSide).rgray = s.rgray := rfl
@[simp] theorem State.resetWriteSide_wq : (s.resetWriteSide).wq = s.wq := rfl
@[simp] theorem State.resetWriteSide_wReset : (s.resetWriteSide).wReset = s.wReset := rfl
@[simp] theorem State.resetWriteSide_rReset : (s.resetWriteSide).rReset = s.rReset := rfl
@[simp] theorem State.resetWriteSide_inputs : (s.resetWriteSide).inputs = s.inputs := rfl
@[simp] theorem State.resetWriteSide_draws : (s.resetWriteSide).draws = s.draws := rfl
@[simp] theorem State.resetWriteSide_sig : (s.resetWriteSide).sig = s.sig := rfl
@[simp] theorem State.resetWriteSide_trace : (s.resetWriteSide).trace = s.trace := rfl
@[simp] theorem State.resetWriteSide_memRead (i : Nat) : (s.resetWriteSide).memRead i = s.memRead i := rfl

/-! ### `State.resetReadSide` -/

@[simp] theorem State.resetReadSide_cfg : (s.resetReadSide).cfg = s.cfg := rfl
@[simp] theorem State.resetReadSide_p : (s.resetReadSide).p = s.p := rfl
@[simp] theorem State.resetReadSide_acc : (s.resetReadSide).acc = s.acc := rfl
@[simp] theorem State.resetReadSide_ones : (s.resetReadSide).ones = s.ones := rfl
@[simp] theorem State.resetReadSide_ack : (s.resetReadSide).ack = s.ack := rfl
@[simp] theorem State.resetReadSide_mem : (s.resetReadSide).mem = s.mem := rfl
@[simp] theorem State.resetReadSide_head : (s.resetReadSide).head = s.head := rfl
@[simp] theorem State.resetReadSide_tail : (s.resetReadSide).tail = s.tail := rfl
@[simp] theorem State.resetReadSide_count : (s.resetReadSide).count = s.count := rfl
@[simp] theorem State.resetReadSide_dropCnt : (s.resetReadSide).dropCnt = s.dropCnt := rfl
@[simp] theorem State.resetReadSide_wbin : (s.resetReadSide).wbin = s.wbin := rfl
@[simp] theorem State.resetReadSide_wgray : (s.resetReadSide).wgray = s.wgray := rfl
@[simp] theorem State.resetReadSide_rq : (s.resetReadSide).rq = s.rq := rfl
@[simp] theorem State.resetReadSide_rbin : (s.resetReadSide).rbin = 0 := rfl
@[simp] theorem State.resetReadSide_rgray : (s.resetReadSide).rgray = 0 := rfl
@[simp] theorem State.resetReadSide_wq : (s.resetReadSide).wq = List.replicate s.cfg.syncStages 0 := rfl
@[simp] theorem State.resetReadSide_wReset : (s.resetReadSide).wReset = s.wReset := rfl
@[simp] theorem State.resetReadSide_rReset : (s.resetReadSide).rReset = s.rReset := rfl
@[simp] theorem State.resetReadSide_inputs : (s.resetReadSide).inputs = s.inputs := rfl
@[simp] theorem State.resetReadSide_draws : (s.resetReadSide).draws = s.draws := rfl
@[simp] theorem State.resetReadSide_sig : (s.resetReadSide).sig = s.sig := rfl
@[simp] theorem State.resetReadSide_trace : (s.resetReadSide).trace = s.trace := rfl
@[simp] theorem State.resetReadSide_memRead (i : Nat) : (s.resetReadSide).memRead i = s.memRead i := rfl

/-! ### `State.sample` -/

@[simp] theorem State.sample_cfg : (s.sample).cfg = s.cfg := rfl
@[simp] theorem State.sample_p : (s.sample).p = s.p := rfl
@[simp] theorem State.sample_acc : (s.sample).acc = s.acc := rfl
@[simp] theorem State.sample_ones : (s.sample).ones = s.ones := rfl
@[simp] theorem State.sample_ack : (s.sample).ack = s.ack := rfl
@[simp] theorem State.sample_mem : (s.sample).mem = s.mem := rfl
@[simp] theorem State.sample_head : (s.sample).head = s.head := rfl
@[simp] theorem State.sample_tail : (s.sample).tail = s.tail := rfl
@[simp] theorem State.sample_count : (s.sample).count = s.count := rfl
@[simp] theorem State.sample_dropCnt : (s.sample).dropCnt = s.dropCnt := rfl
@[simp] theorem State.sample_wbin : (s.sample).wbin = s.wbin := rfl
@[simp] theorem State.sample_wgray : (s.sample).wgray = s.wgray := rfl
@[simp] theorem State.sample_rq : (s.sample).rq = s.rq := rfl
@[simp] theorem State.sample_rbin : (s.sample).rbin = s.rbin := rfl
@[simp] theorem State.sample_rgray : (s.sample).rgray = s.rgray := rfl
@[simp] theorem State.sample_wq : (s.sample).wq = s.wq := rfl
@[simp] theorem State.sample_wReset : (s.sample).wReset = s.wReset := rfl
@[simp] theorem State.sample_rReset : (s.sample).rReset = s.rReset := rfl
@[simp] theorem State.sample_inputs : (s.sample).inputs = s.inputs := rfl
@[simp] theorem State.sample_draws : (s.sample).draws = s.draws := rfl
@[simp] theorem State.sample_sig : (s.sample).sig = ⟨s.nextInput, false, s.sig.pushv, false, s.rdDataPort, .none, .none, .none⟩ := rfl
@[simp] theorem State.sample_trace : (s.sample).trace = s.trace := rfl
@[simp] theorem State.sample_memRead (i : Nat) : (s.sample).memRead i = s.memRead i := rfl

/-! ### `State.close` -/

@[simp] theorem State.close_cfg (pre : State) : (s.close pre).cfg = s.cfg := rfl
@[simp] theorem State.close_p (pre : State) : (s.close pre).p = s.p := rfl
@[simp] theorem State.close_acc (pre : State) : (s.close pre).acc = s.acc := rfl
@[simp] theorem State.close_ones (pre : State) : (s.close pre).ones = s.ones := rfl
@[simp] theorem State.close_ack (pre : State) : (s.close pre).ack = s.ack := rfl
@[simp] theorem State.close_mem (pre : State) : (s.close pre).mem = s.mem := rfl
@[simp] theorem State.close_head (pre : State) : (s.close pre).head = s.head := rfl
@[simp] theorem State.close_tail (pre : State) : (s.close pre).tail = s.tail := rfl
@[simp] theorem State.close_count (pre : State) : (s.close pre).count = s.count := rfl
@[simp] theorem State.close_dropCnt (pre : State) : (s.close pre).dropCnt = s.dropCnt := rfl
@[simp] theorem State.close_wbin (pre : State) : (s.close pre).wbin = s.wbin := rfl
@[simp] theorem State.close_wgray (pre : State) : (s.close pre).wgray = s.wgray := rfl
@[simp] theorem State.close_rq (pre : State) : (s.close pre).rq = s.rq := rfl
@[simp] theorem State.close_rbin (pre : State) : (s.close pre).rbin = s.rbin := rfl
@[simp] theorem State.close_rgray (pre : State) : (s.close pre).rgray = s.rgray := rfl
@[simp] theorem State.close_wq (pre : State) : (s.close pre).wq = s.wq := rfl
@[simp] theorem State.close_wReset (pre : State) : (s.close pre).wReset = s.wReset := rfl
@[simp] theorem State.close_rReset (pre : State) : (s.close pre).rReset = s.rReset := rfl
@[simp] theorem State.close_inputs (pre : State) : (s.close pre).inputs = s.remaining := rfl
@[simp] theorem State.close_draws (pre : State) : (s.close pre).draws = s.draws + 1 := rfl
@[simp] theorem State.close_sig (pre : State) : (s.close pre).sig = s.sig := rfl
@[simp] theorem State.close_trace (pre : State) : (s.close pre).trace = cycleRecord pre s :: s.trace := rfl
@[simp] theorem State.close_memRead (pre : State) (i : Nat) : (s.close pre).memRead i = s.memRead i := rfl

end Sys2Proof.Machine
end

