-- ==== Sys2Proof/Laws/Ops.lean ====
section
/-! SUPPORT. What the shared operations can do: outcomes, widths and counts, pointers and their gray codes, synchronisers. -/

namespace Sys2Proof.Machine

/-! ### Outcomes -/

@[simp] theorem andThen_next (s : State) (k : State → Result) : andThen (.next s) k = k s := rfl

@[simp] theorem andThen_fault (f : Fault) (k : State → Result) : andThen (.fault f) k = .fault f := rfl

@[simp] theorem andThen_refused (e : Refusal) (k : State → Result) : andThen (.refused e) k = .refused e := rfl

/-- A sequence answers a next state exactly if both parts do. -/
theorem andThen_eq_next {r : Result} {k : State → Result} {t : State} :
    andThen r k = .next t ↔ ∃ s, r = .next s ∧ k s = .next t := by
  cases r <;> simp [andThen]

/-- The guard passes on exactly the indices that are entries of the storage. -/
theorem guardEntry_eq_next {i : Nat} {s t : State} : guardEntry i s = .next t ↔ i < s.cfg.depth ∧ t = s := by
  unfold guardEntry
  split <;> simp_all [eq_comm]

theorem guardEntry_of_lt {i : Nat} {s : State} (h : i < s.cfg.depth) : guardEntry i s = .next s := by
  simp [guardEntry, h]

theorem guardEntry_of_le {i : Nat} {s : State} (h : s.cfg.depth ≤ i) : guardEntry i s = .fault (.noSuchEntry i) := by
  simp [guardEntry, Nat.not_lt.2 h]

/-! ### Widths and counts -/

/-- CNT_W and PTR_W hold what they must: `n ≤ 2^ceil(log2 n)`. -/
theorem le_two_pow_ceilLog2 (n : Nat) : n ≤ 2 ^ ceilLog2 n := by
  unfold ceilLog2
  cases h : (List.range (n + 1)).find? (fun k => decide (n ≤ 2 ^ k)) with
  | none =>
    have := List.find?_eq_none.1 h n (by simp)
    exact absurd (Nat.le_of_lt (Nat.lt_two_pow_self)) (by simpa using this)
  | some k => simpa using List.find?_some h

theorem depth_lt_two_pow_cntW (depth : Nat) : depth < 2 ^ cntW depth :=
  le_two_pow_ceilLog2 (depth + 1)

/-- `count <- count + acc_ok - hit` does not wrap where the result is in 0..DEPTH (R142). -/
theorem count_arith {depth count : Nat} {a h : Bool} (hh : h.toNat ≤ count + a.toNat)
    (hd : count + a.toNat - h.toNat ≤ depth) :
    (count + 2 ^ cntW depth + a.toNat - h.toNat) % 2 ^ cntW depth = count + a.toNat - h.toNat := by
  have hw := depth_lt_two_pow_cntW depth
  have e : count + 2 ^ cntW depth + a.toNat - h.toNat = (count + a.toNat - h.toNat) + 2 ^ cntW depth := by omega
  rw [e, Nat.add_mod_right, Nat.mod_eq_of_lt (by omega)]

theorem advance_lt {depth x : Nat} (h : 0 < depth) : advance depth x < depth := Nat.mod_lt _ h

/-! ### Pointers of ASYNC = 1 -/

theorem ptrMod_pos (depth : Nat) : 0 < ptrMod depth := Nat.two_pow_pos _

theorem ptrMod_eq (depth : Nat) : ptrMod depth = 2 * 2 ^ addrW depth := by
  rw [ptrMod, Nat.pow_succ, Nat.mul_comm]

/-- The distance of two pointers is below the modulus. -/
theorem ptrDiff_lt (depth a b : Nat) : ptrDiff depth a b < ptrMod depth := Nat.mod_lt _ (ptrMod_pos depth)

/-- The distance of two pointers in range, by which of them is the greater. -/
theorem ptrDiff_eq {depth a b : Nat} (ha : a < ptrMod depth) (hb : b < ptrMod depth) :
    ptrDiff depth a b = if b ≤ a then a - b else a + ptrMod depth - b := by
  unfold ptrDiff
  split
  · rw [show a + ptrMod depth - b = (a - b) + ptrMod depth by omega, Nat.add_mod_right, Nat.mod_eq_of_lt (by omega)]
  · exact Nat.mod_eq_of_lt (by omega)

/-! ### Gray codes -/

theorem ungrayBelow_lt (g n : Nat) (above : Bool) : ungrayBelow g n above < 2 ^ n := by
  induction n generalizing above with
  | zero => simp [ungrayBelow]
  | succ n ih =>
    have h := ih (above ^^ g.testBit n)
    simp only [ungrayBelow, Nat.pow_succ]
    split <;> omega

/-- Bit `i` of `ungray` is bit `i + 1` of it, or `above` at the top, changed by bit `i` of the code. -/
theorem testBit_ungrayBelow (g n : Nat) (above : Bool) {i : Nat} (hi : i < n) :
    (ungrayBelow g n above).testBit i =
      ((if i + 1 = n then above else (ungrayBelow g n above).testBit (i + 1)) ^^ g.testBit i) := by
  induction n generalizing above with
  | zero => omega
  | succ n ih =>
    have hlt := ungrayBelow_lt g n (above ^^ g.testBit n)
    have top : (ungrayBelow g (n + 1) above).testBit n = (above ^^ g.testBit n) := by
      simp only [ungrayBelow]
      split <;> rename_i hb
      · rw [Nat.testBit_two_pow_add_eq, Nat.testBit_lt_two_pow hlt]; simp [hb]
      · rw [Nat.zero_add, Nat.testBit_lt_two_pow hlt]; simpa using hb
    have low : ∀ j, j < n →
        (ungrayBelow g (n + 1) above).testBit j = (ungrayBelow g n (above ^^ g.testBit n)).testBit j := by
      intro j hj
      simp only [ungrayBelow]
      split
      · rw [Nat.testBit_two_pow_add_gt hj]
      · rw [Nat.zero_add]
    rcases Nat.lt_succ_iff_lt_or_eq.1 hi with hin | rfl
    · rw [low i hin, ih _ hin]
      by_cases e : i + 1 = n
      · subst e; simp [top]
      · have : i + 1 < n := by omega
        simp [e, low _ this, show i ≠ n by omega]
    · simp [top]

theorem ungray_lt (depth g : Nat) : ungray depth g < ptrMod depth := ungrayBelow_lt _ _ _

theorem testBit_ungray (depth g : Nat) {i : Nat} (hi : i ≤ addrW depth) :
    (ungray depth g).testBit i = ((ungray depth g).testBit (i + 1) ^^ g.testBit i) := by
  have h := testBit_ungrayBelow g (addrW depth + 1) false (i := i) (by omega)
  rw [show ungrayBelow g (addrW depth + 1) false = ungray depth g from rfl] at h
  rw [h]
  by_cases e : i = addrW depth
  · have z : (ungray depth g).testBit (i + 1) = false := by
      rw [e]
      exact Nat.testBit_lt_two_pow (ungray_lt depth g)
    rw [if_pos (by omega), z]
  · rw [if_neg (by omega)]

theorem gray_lt {depth b : Nat} (h : b < ptrMod depth) : gray b < ptrMod depth := by
  unfold gray ptrMod at *
  exact Nat.xor_lt_two_pow h (Nat.lt_of_le_of_lt (Nat.shiftRight_le _ _) h)

theorem testBit_gray (b i : Nat) : (gray b).testBit i = (b.testBit i ^^ b.testBit (i + 1)) := by
  simp [gray, Nat.testBit_xor, Nat.testBit_shiftRight, Nat.add_comm]

/-- `ungray` undoes `gray` on AW+1-bit values. -/
theorem ungray_gray {depth b : Nat} (h : b < ptrMod depth) : ungray depth (gray b) = b := by
  have hu := ungray_lt depth (gray b)
  have key : ∀ k, ∀ i, addrW depth + 1 ≤ i + k → (ungray depth (gray b)).testBit i = b.testBit i := by
    intro k
    induction k with
    | zero =>
      intro i hi
      have hp : 2 ^ (addrW depth + 1) ≤ 2 ^ i := Nat.pow_le_pow_right (by omega) (by omega)
      rw [Nat.testBit_lt_two_pow (Nat.lt_of_lt_of_le hu hp), Nat.testBit_lt_two_pow (Nat.lt_of_lt_of_le h hp)]
    | succ k ih =>
      intro i hi
      by_cases hi' : addrW depth + 1 ≤ i
      · exact ih i (by omega)
      · rw [testBit_ungray _ _ (by omega), ih (i + 1) (by omega), testBit_gray]
        cases b.testBit i <;> cases b.testBit (i + 1) <;> rfl
  exact Nat.eq_of_testBit_eq fun i => key (addrW depth + 1) i (by omega)

/-- `gray` undoes `ungray` on AW+1-bit values. -/
theorem gray_ungray {depth g : Nat} (h : g < ptrMod depth) : gray (ungray depth g) = g := by
  refine Nat.eq_of_testBit_eq fun i => ?_
  rw [testBit_gray]
  by_cases hi : i ≤ addrW depth
  · rw [testBit_ungray _ _ hi]
    cases (ungray depth g).testBit (i + 1) <;> cases g.testBit i <;> rfl
  · have hp : ∀ j, i ≤ j → 2 ^ (addrW depth + 1) ≤ 2 ^ j := fun j hj => Nat.pow_le_pow_right (by omega) (by omega)
    have hu := ungray_lt depth g
    rw [Nat.testBit_lt_two_pow (Nat.lt_of_lt_of_le hu (hp i (Nat.le_refl i))),
      Nat.testBit_lt_two_pow (Nat.lt_of_lt_of_le hu (hp (i + 1) (by omega))),
      Nat.testBit_lt_two_pow (Nat.lt_of_lt_of_le h (hp i (Nat.le_refl i)))]
    rfl

/-! ### Synchronisers -/

@[simp] theorem length_shiftIn (x : Nat) (q : List Nat) : (shiftIn x q).length = q.length := by simp [shiftIn]

theorem getElem?_shiftIn_zero (x : Nat) {q : List Nat} (h : 0 < q.length) : (shiftIn x q)[0]? = some x := by
  cases q with
  | nil => simp at h
  | cons a q => simp [shiftIn]

theorem getElem?_shiftIn_succ (x : Nat) {q : List Nat} {i : Nat} (h : i + 1 < q.length) :
    (shiftIn x q)[i + 1]? = q[i]? := by
  simp [shiftIn, h]

/-- A stage after a shift holds the new value or an earlier stage's. -/
theorem mem_shiftIn {x y : Nat} {q : List Nat} (h : y ∈ shiftIn x q) : y = x ∨ y ∈ q := by
  have := List.dropLast_subset _ h
  simpa using this

theorem length_setStage1 (x : Nat) (q : List Nat) : (setStage1 x q).length = q.length := by
  cases q <;> simp [setStage1]

theorem mem_setStage1 {x y : Nat} {q : List Nat} (h : y ∈ setStage1 x q) : y = x ∨ y ∈ q := by
  cases q with
  | nil => simp [setStage1] at h
  | cons a q =>
    simp only [setStage1, List.mem_cons] at h
    rcases h with rfl | h
    · exact .inl rfl
    · exact .inr (List.mem_cons_of_mem _ h)

/-- What a synchroniser of at least one stage shows is one of its stages. -/
theorem lastStage_mem {q : List Nat} (h : 0 < q.length) : lastStage q ∈ q := by
  cases q with
  | nil => simp at h
  | cons a q =>
    simp only [lastStage, List.getLastD_cons]
    exact List.getLastD_mem_cons

/-- Resolving stage 1 after a shift is shifting in the resolved value. -/
theorem setStage1_shiftIn (x y : Nat) (q : List Nat) : setStage1 y (shiftIn x q) = shiftIn y q := by
  cases q <;> simp [setStage1, shiftIn]

end Sys2Proof.Machine
end

