-- ==== Sys2Proof/Laws/AsyncFifo.lean ====
section
/-! SUPPORT. What each side's FIFO operation can do with ASYNC = 1, and when it answers. -/

namespace Sys2Proof.Machine

/-! ### The rows of the FOW_W and FOW_R tables (R168) -/

theorem fowW_idle (f : Bool) : Sys2Proof.decode .fowW (twoBits false f) = .ok (.wIdle f) := by revert f; decide

theorem fowW_push (f : Bool) : Sys2Proof.decode .fowW (twoBits true f) = .ok (if f then .wDrop else .wPush) := by
  revert f; decide

theorem fowR_idle (m : Bool) : Sys2Proof.decode .fowR (twoBits false m) = .ok (.rIdle m) := by revert m; decide

theorem fowR_pop (m : Bool) : Sys2Proof.decode .fowR (twoBits true m) = .ok (if m then .rMiss else .rPop) := by
  revert m; decide

/-! ### A legal build -/

/-- In a legal ASYNC = 1 build the low AW bits of a pointer name an entry of the storage (R160). -/
theorem index_lt {c : Config} (hc : LegalConfig c) (ha : c.async = true) (x : Nat) :
    x % 2 ^ addrW c.depth < c.depth := by
  have := (hc.2 ha).2.1
  have h := Nat.mod_lt x (Nat.two_pow_pos (addrW c.depth))
  omega

/-- In a legal ASYNC = 1 build the pointers count modulo 2 * DEPTH. -/
theorem ptrMod_legal {c : Config} (hc : LegalConfig c) (ha : c.async = true) : ptrMod c.depth = 2 * c.depth := by
  have := (hc.2 ha).2.1
  rw [ptrMod_eq]
  omega

/-! ### The operations of an edge -/

/-- The effect of the write domain's FIFO operation (R169 to R171), by its accepted-enqueue and drop bits. -/
def WriteEffect (s t : State) (accOk drop : Bool) : Prop :=
  t.mem = (if accOk then Memory.write s.mem s.writeIndex s.sig.pushv else s.mem) ∧
  t.wbin = (if accOk then (s.wbin + 1) % ptrMod s.cfg.depth else s.wbin) ∧
  t.wgray = (if accOk then gray ((s.wbin + 1) % ptrMod s.cfg.depth) else s.wgray) ∧
  t.rq = shiftIn s.rgray s.rq ∧
  t.dropCnt = (if drop then satInc8 s.dropCnt else s.dropCnt) ∧
  t.sig.prod = (if accOk then .accept s.sig.pushv else if drop then .drop s.sig.pushv else .none) ∧
  KeepsDecoder s t ∧ KeepsRequest s t ∧ KeepsSyncFifo s t ∧ KeepsReadSide s t ∧ KeepsReadPort s t ∧ KeepsRest s t

/-- The effect of the read domain's FIFO operation (R172 to R174), by its hit bit. -/
def ReadEffect (s t : State) (hit : Bool) : Prop :=
  t.rbin = (if hit then (s.rbin + 1) % ptrMod s.cfg.depth else s.rbin) ∧
  t.rgray = (if hit then gray ((s.rbin + 1) % ptrMod s.cfg.depth) else s.rgray) ∧
  t.wq = shiftIn s.wgray s.wq ∧
  t.sig.rdValid = hit ∧ (s.emptyR = false → t.sig.rdData = s.memRead s.readIndex) ∧
  t.sig.cons = (if hit then .hit (s.memRead s.readIndex) else if s.sig.inp.deq then .miss else .none) ∧
  t.mem = s.mem ∧ t.dropCnt = s.dropCnt ∧ t.sig.prod = s.sig.prod ∧
  KeepsDecoder s t ∧ KeepsRequest s t ∧ KeepsSyncFifo s t ∧ KeepsWriteSide s t ∧ KeepsRest s t

/-- With the entry in reach, the write domain's FIFO operation answers a next state. -/
theorem write_next (s : State) (hw : s.sig.push = true → s.fullW = false → s.writeIndex < s.cfg.depth) :
    ∃ t, execWord .fowW s.fowWOf s = .next t ∧
      WriteEffect s t (s.sig.push && !s.fullW) (s.sig.push && s.fullW) := by
  unfold execWord State.fowWOf
  cases hp : s.sig.push
  · rw [fowW_idle]
    refine ⟨_, rfl, ?_⟩
    simp [WriteEffect, KeepsDecoder, KeepsRequest, KeepsSyncFifo, KeepsReadSide, KeepsReadPort, KeepsRest]
  · rw [fowW_push]
    cases hf : s.fullW
    · simp only [Bool.false_eq_true, if_false, exec, execWPush]
      rw [guardEntry_of_lt (hw hp hf)]
      refine ⟨_, rfl, ?_⟩
      simp [WriteEffect, KeepsDecoder, KeepsRequest, KeepsSyncFifo, KeepsReadSide, KeepsReadPort, KeepsRest]
    · refine ⟨_, rfl, ?_⟩
      simp [WriteEffect, KeepsDecoder, KeepsRequest, KeepsSyncFifo, KeepsReadSide, KeepsReadPort, KeepsRest]

/-- With the entry in reach, the read domain's FIFO operation answers a next state. -/
theorem read_next (s : State) (hr : s.sig.inp.deq = true → s.emptyR = false → s.readIndex < s.cfg.depth) :
    ∃ t, readPart s = .next t ∧ ReadEffect s t (s.sig.inp.deq && !s.emptyR) := by
  unfold readPart execWord State.fowROf
  cases hd : s.sig.inp.deq
  · rw [fowR_idle]
    refine ⟨_, rfl, ?_⟩
    simp +contextual [ReadEffect, KeepsDecoder, KeepsRequest, KeepsSyncFifo, KeepsWriteSide, KeepsRest, hd,
      State.rdDataAsync]
  · rw [fowR_pop]
    cases he : s.emptyR
    · simp only [Bool.false_eq_true, if_false, exec, execRPop]
      rw [guardEntry_of_lt (hr hd he)]
      refine ⟨_, rfl, ?_⟩
      simp [ReadEffect, KeepsDecoder, KeepsRequest, KeepsSyncFifo, KeepsWriteSide, KeepsRest, State.hitAsync]
    · refine ⟨_, rfl, ?_⟩
      simp [ReadEffect, KeepsDecoder, KeepsRequest, KeepsSyncFifo, KeepsWriteSide, KeepsRest, he, hd]

/-- What the write domain's FIFO operation did, if it answered a next state. -/
theorem write_effect {s t : State} (h : execWord .fowW s.fowWOf s = .next t) :
    WriteEffect s t (s.sig.push && !s.fullW) (s.sig.push && s.fullW) := by
  have hw : s.sig.push = true → s.fullW = false → s.writeIndex < s.cfg.depth := by
    intro hp hf
    unfold execWord State.fowWOf at h
    rw [hp, hf, fowW_push] at h
    exact (guardEntry_eq_next.1 (andThen_eq_next.1 h).choose_spec.1).1
  obtain ⟨t', h', e⟩ := write_next s hw
  rw [h] at h'
  cases h'
  exact e

/-- What the read domain's FIFO operation did, if it answered a next state. -/
theorem read_effect {s t : State} (h : readPart s = .next t) : ReadEffect s t (s.sig.inp.deq && !s.emptyR) := by
  have hr : s.sig.inp.deq = true → s.emptyR = false → s.readIndex < s.cfg.depth := by
    intro hd he
    unfold readPart execWord State.fowROf at h
    rw [hd, he, fowR_pop] at h
    exact (guardEntry_eq_next.1 (andThen_eq_next.1 h).choose_spec.1).1
  obtain ⟨t', h', e⟩ := read_next s hr
  rw [h] at h'
  cases h'
  exact e

end Sys2Proof.Machine
end

