-- ==== Sys2Proof/Laws/Decoder.lean ====
section
/-! SUPPORT. What a decoder operation can do: the DEW's row, and the one specification of a decoder step that the statements
about the decoder cite. -/

namespace Sys2Proof.Machine

/-! ### The rows of the DEW table (R75) -/

theorem dew_start (o d : Bool) :
    Sys2Proof.decode .dew (dewWord 0 o d) = .ok (if d then .decIdle o else .decStart o) := by revert o d; decide

theorem dew_data0 (o d : Bool) : Sys2Proof.decode .dew (dewWord 1 o d) = .ok (.decData0 o d) := by
  revert o d; decide

theorem dew_data1 (o d : Bool) : Sys2Proof.decode .dew (dewWord 2 o d) = .ok (.decData1 o d) := by
  revert o d; decide

theorem dew_data2 (o d : Bool) : Sys2Proof.decode .dew (dewWord 3 o d) = .ok (.decData2 o d) := by
  revert o d; decide

theorem dew_data3 (o d : Bool) : Sys2Proof.decode .dew (dewWord 4 o d) = .ok (.decData3 o d) := by
  revert o d; decide

theorem dew_data4 (o d : Bool) : Sys2Proof.decode .dew (dewWord 5 o d) = .ok (.decData4 o d) := by
  revert o d; decide

theorem dew_data5 (o d : Bool) : Sys2Proof.decode .dew (dewWord 6 o d) = .ok (.decData5 o d) := by
  revert o d; decide

theorem dew_data6 (o d : Bool) : Sys2Proof.decode .dew (dewWord 7 o d) = .ok (.decData6 o d) := by
  revert o d; decide

theorem dew_data7 (o d : Bool) : Sys2Proof.decode .dew (dewWord 8 o d) = .ok (.decData7 o d) := by
  revert o d; decide

theorem dew_parity (o d : Bool) :
    Sys2Proof.decode .dew (dewWord 9 o d) =
      .ok (if o = d then (if o then .decParBadO else .decParBadE) else (if o then .decParOkO else .decParOkE)) := by
  revert o d; decide

theorem dew_stop (o d : Bool) :
    Sys2Proof.decode .dew (dewWord 10 o d) = .ok (if d then .decStopOk o else .decStopBad o) := by revert o d; decide

theorem dew_recoverB (o d : Bool) : Sys2Proof.decode .dew (dewWord 11 o d) = .ok (.decRecoverB o d) := by
  revert o d; decide

theorem dew_recoverC (p : Nibble) (o d : Bool) (h : 12 ≤ p.toNat) :
    Sys2Proof.decode .dew (dewWord p o d) = .ok (.decRecoverC (p.extractLsb' 0 2) o d) := by
  revert p o d; decide

theorem nibble_cases (p : Nibble) :
    p = 0 ∨ p = 1 ∨ p = 2 ∨ p = 3 ∨ p = 4 ∨ p = 5 ∨ p = 6 ∨ p = 7 ∨ p = 8 ∨ p = 9 ∨ p = 10 ∨ p = 11 ∨
      12 ≤ p.toNat := by
  revert p; decide

/-! ### A decoder step -/

/-- The updates of a decoder operation touch nothing of the FIFO. -/
theorem keepsFifo_setDecoder (s : State) (p : Nibble) (acc : Byte) (ones : Nibble) (o : DecOutcome) :
    KeepsFifo s (s.setDecoder p acc ones o).handshake := by
  simp [KeepsFifo, KeepsSyncFifo, KeepsWriteSide, KeepsReadSide, KeepsStorage, KeepsReadPort, KeepsRest]

/-- Nor does the request of DEC_STOP_OK. -/
theorem keepsFifo_request (s : State) (p : Nibble) (acc : Byte) (ones : Nibble) (o : DecOutcome) (v : Byte) :
    KeepsFifo s ((s.setDecoder p acc ones o).request v).handshake := by
  simp [KeepsFifo, KeepsSyncFifo, KeepsWriteSide, KeepsReadSide, KeepsStorage, KeepsReadPort, KeepsRest]

/-- The effect of the decoder's part of a cycle on `s`, given what the decoder's function makes of its registers: the writes, the
storage untouched, the byte pushed, and the outcome FRAME_OK exactly for a push. -/
def DecoderEffect (s t : State) (d : Nibble × Byte × Nibble × Option Byte) : Prop :=
  DecoderWrites s t d.1 d.2.1 d.2.2.1 d.2.2.2.isSome t.sig.dec ∧ t.mem = s.mem ∧
  (∀ v, d.2.2.2 = some v → t.sig.pushv = v) ∧ ∀ v, t.sig.dec = .frameOk v ↔ d.2.2.2 = some v

/-- What a decoder step does, in any state and for either bit: it answers a next state whose decoder registers and request are
those of the decoder's function (R38), with an outcome label that is never NONE and is FRAME_OK exactly for a push, and leaves
the rest of the machine as it was. -/
theorem decoderStep_spec (s : State) (dat : Bool) :
    let d := decoderFunction s.p s.acc s.ones dat
    ∃ t, decoderStep s dat = .next t ∧ DecoderEffect s t d ∧ t.sig.dec ≠ .none := by
  intro d
  unfold decoderStep execWord
  rcases nibble_cases s.p with
    hp | hp | hp | hp | hp | hp | hp | hp | hp | hp | hp | hp | hp
  case inr.inr.inr.inr.inr.inr.inr.inr.inr.inr.inr.inr =>
    have hd : d = (0, 0, 0, none) := by
      have h0 : s.p ≠ 0 := by rintro e; rw [e] at hp; exact absurd hp (by decide)
      have h9 : s.p ≠ 9 := by rintro e; rw [e] at hp; exact absurd hp (by decide)
      have h10 : s.p ≠ 10 := by rintro e; rw [e] at hp; exact absurd hp (by decide)
      simp only [d, decoderFunction, if_neg h0, if_neg h9, if_neg h10, if_neg (show ¬ s.p.toNat ≤ 8 by omega)]
    rw [dew_recoverC _ _ _ hp]
    refine ⟨_, rfl, ?_⟩
    simp [hd, DecoderEffect, DecoderWrites, State.resync, keepsFifo_setDecoder]
  all_goals
    rw [hp]
    first
      | rw [dew_start] | rw [dew_data0] | rw [dew_data1] | rw [dew_data2] | rw [dew_data3] | rw [dew_data4]
      | rw [dew_data5] | rw [dew_data6] | rw [dew_data7] | rw [dew_parity] | rw [dew_stop] | rw [dew_recoverB]
    cases dat <;> cases ho : s.ones.getLsbD 0
  all_goals
    refine ⟨_, rfl, ?_⟩
    simp only [BitVec.getLsbD_eq_getElem, Nat.zero_lt_succ] at ho
    simp [d, hp, ho, decoderFunction, DecoderEffect, DecoderWrites, State.resync, State.absorbData, keepsFifo_setDecoder,
      keepsFifo_request]
  all_goals rfl

/-- The decoder's part of a cycle: in a step cycle a decoder step with the sampled bit, else DEC_HOLD. -/
theorem decoderPart_eq (s : State) :
    decoderPart s = if s.takesStep then decoderStep s s.sig.inp.dat else exec .decHold s := by
  unfold decoderPart decoderStep State.dewOf
  rfl

/-- The decoder's part of a cycle, as the cycle function has it (R38): the new registers and the byte pushed. -/
def decoderOf (s : State) : Nibble × Byte × Nibble × Option Byte :=
  if s.takesStep then decoderFunction s.p s.acc s.ones s.sig.inp.dat else (s.p, s.acc, s.ones, none)

/-- What the decoder's part of a cycle does: the decoder's function in a step cycle, nothing but the handshake in any other. -/
theorem decoderPart_spec (s : State) :
    ∃ t, decoderPart s = .next t ∧ DecoderEffect s t (decoderOf s) ∧ (t.sig.dec ≠ .none ↔ s.takesStep = true) := by
  rw [decoderPart_eq, decoderOf]
  by_cases h : s.takesStep = true
  · simp only [h, if_true]
    obtain ⟨t, ht, hw, hn⟩ := decoderStep_spec s s.sig.inp.dat
    exact ⟨t, ht, hw, by simpa using hn⟩
  · simp only [h]
    refine ⟨_, rfl, ?_⟩
    simp [DecoderEffect, DecoderWrites, KeepsFifo, KeepsStorage, KeepsSyncFifo, KeepsWriteSide, KeepsReadSide,
      KeepsReadPort, KeepsRest]

end Sys2Proof.Machine
end

