-- ==== Sys2Proof/Laws/Reset.lean ====
section
/-! SUPPORT. What RESET can do, in both variants, and what a joint reset's tracking allows (R178). -/

namespace Sys2Proof.Machine

/-! ### RESET -/

/-- What a reset edge of the write domain makes of its registers and its part of the signals (R37, R162, R201). -/
abbrev WriteDomainReset (t : State) : Prop :=
  t.p = 0 ∧ t.acc = 0 ∧ t.ones = 0 ∧ t.ack = false ∧ t.dropCnt = 0 ∧ t.WriteSideReset ∧
  t.sig.push = false ∧ t.sig.dec = .none ∧ t.sig.prod = .none

/-- Everything of the write domain but the storage is as before. -/
abbrev KeepsWriteDomain (s t : State) : Prop :=
  KeepsDecoder s t ∧ t.dropCnt = s.dropCnt ∧ KeepsWriteSide s t ∧
  t.sig.push = s.sig.push ∧ t.sig.dec = s.sig.dec ∧ t.sig.prod = s.sig.prod

/-- What a reset edge of the read domain makes of its registers and the read port (R163, R201); `rdData` is what the port showed. -/
abbrev ReadDomainReset (t : State) (rdData : Byte) : Prop :=
  t.ReadSideReset ∧ t.sig.rdValid = false ∧ t.sig.rdData = rdData ∧ t.sig.cons = .none

/-- The whole effect of RESET on `s` (R37, R162, R163, R201). -/
def ResetEffect (s t : State) : Prop :=
  t.mem = s.mem ∧ t.sig.pushv = s.sig.pushv ∧ KeepsRest s t ∧
  (s.cfg.async = false →
    t.p = 0 ∧ t.acc = 0 ∧ t.ones = 0 ∧ t.ack = false ∧ t.dropCnt = 0 ∧ t.head = 0 ∧ t.tail = 0 ∧ t.count = 0 ∧
    KeepsWriteSide s t ∧ KeepsReadSide s t ∧ t.sig.push = false ∧ t.sig.dec = .none ∧ t.sig.prod = .none ∧
    t.sig.rdValid = false ∧ t.sig.rdData = s.rdDataPort ∧ t.sig.cons = .none) ∧
  (s.cfg.async = true →
    KeepsSyncFifo s t ∧
    (s.writeResets = true → WriteDomainReset t) ∧ (s.writeResets = false → KeepsWriteDomain s t) ∧
    (s.readResets = true → ReadDomainReset t s.rdDataPort) ∧
    (s.readResets = false → KeepsReadSide s t ∧ KeepsReadPort s t))

/-- RESET answers a next state in every state, whatever the other bits of the PIW. -/
theorem reset_next (s : State) (evt dat deq : Bool) : ∃ t, execReset evt dat deq s = .next t ∧ ResetEffect s t := by
  unfold execReset
  cases ha : s.cfg.async
  · refine ⟨_, rfl, ?_⟩
    simp [ResetEffect, KeepsWriteSide, KeepsReadSide, KeepsRest, State.resetAll, ha]
  · refine ⟨_, rfl, ?_⟩
    have hp : s.resetProducer.resetWriteSide.rdDataPort = s.rdDataPort := rfl
    cases hw : s.writeResets <;> cases hr : s.readResets <;>
      simp [ResetEffect, hp, KeepsRest, KeepsSyncFifo, WriteDomainReset, KeepsWriteDomain, ReadDomainReset, KeepsDecoder,
        KeepsWriteSide, KeepsReadSide, KeepsReadPort, State.WriteSideReset, State.ReadSideReset, State.resetWriteDomain,
        State.resetReadDomain, ha, hw, hr]

/-- What RESET did, if it answered a next state. -/
theorem reset_effect {s t : State} {evt dat deq : Bool} (h : execReset evt dat deq s = .next t) : ResetEffect s t := by
  obtain ⟨t', h', e⟩ := reset_next s evt dat deq
  rw [h] at h'
  cases h'
  exact e

/-! ### The tracking of a joint reset -/

/-- `runRefusal` lets a domain run exactly where `MayRun` does. -/
theorem runRefusal_eq_none {stages : Nat} {own other : DomainReset} {otherResets : Bool} :
    runRefusal stages own other otherResets = none ↔ MayRun stages own other otherResets := by
  cases own <;> cases other <;> cases otherResets <;>
    simp [runRefusal, MayRun, InReset]

/-- An edge is let through exactly if R178 allows each domain that takes an edge without reset to take it. -/
theorem resetRefusal_eq_none {s : State} :
    s.resetRefusal = none ↔
      (s.writeRuns = true → MayRun s.cfg.syncStages s.wReset s.rReset s.readResets) ∧
      (s.readRuns = true → MayRun s.cfg.syncStages s.rReset s.wReset s.writeResets) := by
  rw [State.resetRefusal, Option.or_eq_none_iff]
  cases s.writeRuns <;> cases s.readRuns <;> simp [runRefusal_eq_none]

end Sys2Proof.Machine
end

