-- ==== Sys2Proof/Laws/SyncFifo.lean ====
section
/-! SUPPORT. What the FIFO's operation of a cycle can do with ASYNC = 0: one inversion lemma, and when it answers. -/

namespace Sys2Proof.Machine

/-! ### The rows of the FOW table (R77) -/

theorem fow_full_empty (e d : Bool) : Sys2Proof.decode .fow (fourBits e d true true) = .ok (.fifoImpossible e d) := by
  revert e d; decide

theorem fow_idle (f m : Bool) (h : (f && m) = false) :
    Sys2Proof.decode .fow (fourBits false false f m) = .ok (.fifoIdle f m) := by revert f m; decide

theorem fow_push (f m : Bool) (h : (f && m) = false) :
    Sys2Proof.decode .fow (fourBits true false f m) = .ok (if f then .fifoPushDrop m else .fifoPush m) := by
  revert f m; decide

theorem fow_pop (f m : Bool) (h : (f && m) = false) :
    Sys2Proof.decode .fow (fourBits false true f m) = .ok (if m then .fifoPopMiss f else .fifoPop f) := by
  revert f m; decide

theorem fow_push_pop (f m : Bool) (h : (f && m) = false) :
    Sys2Proof.decode .fow (fourBits true true f m) =
      .ok (if f then .fifoDropPop else if m then .fifoPushPopMiss else .fifoPushPop) := by
  revert f m; decide

/-! ### The operation of a cycle -/

/-- The effect of the FIFO's operation on the state `s` (R38), by the cycle's hit, accepted-enqueue and drop bits: what is written
and what each signal is. -/
def FifoEffect (s t : State) (hit accOk drop : Bool) : Prop :=
  t.mem = (if accOk then Memory.write s.mem s.tail s.sig.pushv else s.mem) ∧
  t.tail = (if accOk then advance s.cfg.depth s.tail else s.tail) ∧
  t.head = (if hit then advance s.cfg.depth s.head else s.head) ∧
  t.dropCnt = (if drop then satInc8 s.dropCnt else s.dropCnt) ∧
  t.sig.rdValid = hit ∧ (s.count ≠ 0 → t.sig.rdData = s.memRead s.head) ∧
  t.sig.cons = (if hit then .hit (s.memRead s.head) else if s.sig.inp.deq then .miss else .none) ∧
  t.sig.prod = (if accOk then .accept s.sig.pushv else if drop then .drop s.sig.pushv else .none) ∧
  (accOk = false → hit = false → t.count = s.count) ∧
  (s.count ≤ s.cfg.depth → t.count + hit.toNat = s.count + accOk.toNat) ∧
  KeepsBesidesSyncFifo s t

/-- `count` after an accepted enqueue alone. -/
theorem count_inc {depth count : Nat} (hf : count ≠ depth) (hi : count ≤ depth) :
    (count + 2 ^ cntW depth + 1) % 2 ^ cntW depth = count + 1 := by
  have := @count_arith depth count true false (by simp) (by simp; omega)
  simpa using this

/-- `count` after a hit alone. -/
theorem count_dec {depth count : Nat} (h0 : count ≠ 0) (hi : count ≤ depth) :
    (count + 2 ^ cntW depth - 1) % 2 ^ cntW depth + 1 = count := by
  have := @count_arith depth count false true (by simp; omega) (by simp; omega)
  simp at this
  omega

/-- What a FIFO operation of ASYNC = 0 leaves as it was, field by field. -/
theorem keepsBesides {s t : State} :
    KeepsBesidesSyncFifo s t ↔
      (t.p = s.p ∧ t.acc = s.acc ∧ t.ones = s.ones ∧ t.ack = s.ack) ∧
      (t.sig.push = s.sig.push ∧ t.sig.pushv = s.sig.pushv ∧ t.sig.dec = s.sig.dec) ∧
      (t.wbin = s.wbin ∧ t.wgray = s.wgray ∧ t.rq = s.rq) ∧ (t.rbin = s.rbin ∧ t.rgray = s.rgray ∧ t.wq = s.wq) ∧
      t.cfg = s.cfg ∧ t.wReset = s.wReset ∧ t.rReset = s.rReset ∧ t.inputs = s.inputs ∧ t.draws = s.draws ∧
      t.trace = s.trace ∧ t.sig.inp = s.sig.inp := Iff.rfl

/-- With the storage's entries in reach, and not full and empty at once, the FIFO's operation of a cycle answers a next state. -/
theorem fifo_next (s : State) (hfe : (s.fullSync && s.emptySync) = false)
    (ht : s.sig.push = true → s.count ≠ s.cfg.depth → s.tail < s.cfg.depth)
    (hh : s.sig.inp.deq = true → s.count ≠ 0 → s.head < s.cfg.depth) :
    ∃ t, execWord .fow s.fowOf s = .next t ∧
      FifoEffect s t (s.sig.inp.deq && s.count != 0) (s.sig.push && s.count != s.cfg.depth)
        (s.sig.push && s.count == s.cfg.depth) := by
  have em : s.emptySync = (s.count == 0) := rfl
  have fu : s.fullSync = (s.count == s.cfg.depth) := rfl
  have n0 : s.count ≠ 0 → (s.count != 0) = true := bne_iff_ne.2
  have nd : s.count ≠ s.cfg.depth → (s.count != s.cfg.depth) = true := bne_iff_ne.2
  unfold execWord State.fowOf
  cases hp : s.sig.push <;> cases hd : s.sig.inp.deq
  · rw [fow_idle _ _ hfe]
    refine ⟨_, rfl, ?_⟩
    simp +contextual [FifoEffect, hd, State.rdDataSync, em, keepsBesides]
  · rw [fow_pop _ _ hfe]
    by_cases he : s.count = 0
    · simp only [em, he, beq_self_eq_true, if_true]
      refine ⟨_, rfl, ?_⟩
      simp [FifoEffect, hd, he, keepsBesides]
    · simp only [em, beq_eq_false_iff_ne.2 he, Bool.false_eq_true, if_false, exec, execFifoPop]
      rw [guardEntry_of_lt (hh hd he)]
      refine ⟨_, rfl, ?_⟩
      simpa [FifoEffect, he, n0 he, keepsBesides] using count_dec he
  · rw [fow_push _ _ hfe]
    by_cases hf : s.count = s.cfg.depth
    · simp only [fu, beq_iff_eq.2 hf, if_true]
      refine ⟨_, rfl, ?_⟩
      simp +contextual [FifoEffect, hd, hf, State.rdDataSync, em, keepsBesides]
    · simp only [fu, beq_eq_false_iff_ne.2 hf, Bool.false_eq_true, if_false, exec, execFifoPush]
      rw [guardEntry_of_lt (ht hp hf)]
      refine ⟨_, rfl, ?_⟩
      simpa +contextual [FifoEffect, hd, hf, nd hf, State.rdDataSync, em, keepsBesides] using count_inc hf
  · rw [fow_push_pop _ _ hfe]
    by_cases hf : s.count = s.cfg.depth
    · have he : s.count ≠ 0 := by
        intro he
        simp [em, fu, he] at hfe
        omega
      simp only [fu, beq_iff_eq.2 hf, if_true, exec, execFifoDropPop]
      rw [guardEntry_of_lt (hh hd he)]
      refine ⟨_, rfl, ?_⟩
      simpa [FifoEffect, n0 he, he, ← hf, keepsBesides] using count_dec he (Nat.le_refl s.count)
    · by_cases he : s.count = 0
      · have hd0 : ¬ 0 = s.cfg.depth := he ▸ hf
        simp only [fu, em, he, beq_eq_false_iff_ne.2 hd0, Bool.false_eq_true, if_false, beq_self_eq_true, if_true, exec,
          execFifoPushPopMiss]
        rw [guardEntry_of_lt (ht hp hf)]
        refine ⟨_, rfl, ?_⟩
        have nd0 : (0 != s.cfg.depth) = true := bne_iff_ne.2 hd0
        simp [FifoEffect, he, hd, nd0, keepsBesides]
      · simp only [fu, em, beq_eq_false_iff_ne.2 he, beq_eq_false_iff_ne.2 hf, Bool.false_eq_true, if_false, exec,
          execFifoPushPop]
        rw [guardEntry_of_lt (hh hd he)]
        simp only [andThen_next]
        rw [guardEntry_of_lt (ht hp hf)]
        refine ⟨_, rfl, ?_⟩
        simp [FifoEffect, n0 he, nd hf, he, keepsBesides]

/-- The FIFO's operation of a cycle answers a next state only where it reaches the storage's entries. -/
theorem fifo_reach {s t : State} (h : execWord .fow s.fowOf s = .next t) :
    (s.fullSync && s.emptySync) = false ∧
      (s.sig.push = true → s.count ≠ s.cfg.depth → s.tail < s.cfg.depth) ∧
      (s.sig.inp.deq = true → s.count ≠ 0 → s.head < s.cfg.depth) := by
  have em : s.emptySync = (s.count == 0) := rfl
  have fu : s.fullSync = (s.count == s.cfg.depth) := rfl
  unfold execWord State.fowOf at h
  have hfe : (s.fullSync && s.emptySync) = false := by
    cases hf : s.fullSync <;> cases he : s.emptySync <;> try rfl
    rw [hf, he, fow_full_empty] at h
    cases h
  refine ⟨hfe, fun hp hf => ?_, fun hd he => ?_⟩
  · rw [← beq_eq_false_iff_ne, ← fu] at hf
    rw [hp, hf] at h
    cases hd : s.sig.inp.deq
    · rw [hd, fow_push _ _ (by simp)] at h
      exact (guardEntry_eq_next.1 (andThen_eq_next.1 h).choose_spec.1).1
    · rw [hd, fow_push_pop _ _ (by simp)] at h
      cases he : s.emptySync
      · rw [he] at h
        obtain ⟨u, hu, h'⟩ := andThen_eq_next.1 h
        obtain ⟨_, rfl⟩ := guardEntry_eq_next.1 hu
        exact (guardEntry_eq_next.1 (andThen_eq_next.1 h').choose_spec.1).1
      · rw [he] at h
        exact (guardEntry_eq_next.1 (andThen_eq_next.1 h).choose_spec.1).1
  · rw [← beq_eq_false_iff_ne, ← em] at he
    rw [hd, he] at h
    cases hp : s.sig.push
    · rw [hp, fow_pop _ _ (by simp)] at h
      exact (guardEntry_eq_next.1 (andThen_eq_next.1 h).choose_spec.1).1
    · rw [hp, fow_push_pop _ _ (by simp)] at h
      cases hf : s.fullSync <;> rw [hf] at h <;>
        exact (guardEntry_eq_next.1 (andThen_eq_next.1 h).choose_spec.1).1

/-- What the FIFO's operation of a cycle did, if it answered a next state. -/
theorem fifo_effect {s t : State} (h : execWord .fow s.fowOf s = .next t) :
    FifoEffect s t (s.sig.inp.deq && s.count != 0) (s.sig.push && s.count != s.cfg.depth)
      (s.sig.push && s.count == s.cfg.depth) := by
  obtain ⟨hfe, ht, hh⟩ := fifo_reach h
  obtain ⟨t', h', e⟩ := fifo_next s hfe ht hh
  rw [h] at h'
  cases h'
  exact e

end Sys2Proof.Machine
end

