-- ==== Sys2Proof/Laws/Cycle.lean ====
section
/-! SUPPORT. What a step can do: the frame around a cycle, a reset cycle, a cycle of ASYNC = 0, an edge of ASYNC = 1. -/

namespace Sys2Proof.Machine

/-! ### The frame around a cycle -/

/-- A step is a cycle on the sampled state, closed. -/
theorem step_eq_next {s t : State} :
    step s = .next t ↔ ∃ u, cycle s.sample = .next u ∧ t = u.close s.sample := by
  unfold step clockEdge
  rw [andThen_eq_next]
  simp [eq_comm]

/-- A step answers a next state exactly if its cycle does. -/
theorem goes_step {s : State} : Goes (step s) ↔ Goes (cycle s.sample) := by
  simp only [Goes, step_eq_next]
  constructor
  · rintro ⟨_, u, h, _⟩
    exact ⟨u, h⟩
  · rintro ⟨u, h⟩
    exact ⟨_, u, h, rfl⟩

/-- The cycle with the record that closing it adds to the trace. -/
theorem close_trace (u pre : State) : (u.close pre).trace = cycleRecord pre u :: u.trace := rfl

/-! ### Sampling -/

theorem sample_inp (s : State) : s.sample.sig.inp = s.nextInput := rfl

theorem sample_push (s : State) : s.sample.sig.push = false := rfl

/-- Sampling changes the signals alone. -/
theorem sample_keeps (s : State) :
    KeepsDecoder s s.sample ∧ KeepsSyncFifo s s.sample ∧ KeepsWriteSide s s.sample ∧ KeepsReadSide s s.sample ∧
      s.sample.mem = s.mem ∧ s.sample.dropCnt = s.dropCnt ∧ s.sample.cfg = s.cfg ∧ s.sample.wReset = s.wReset ∧
      s.sample.rReset = s.rReset ∧ s.sample.inputs = s.inputs ∧ s.sample.draws = s.draws ∧ s.sample.trace = s.trace := by
  simp [KeepsDecoder, KeepsSyncFifo, KeepsWriteSide, KeepsReadSide, State.sample]

/-! ### Reset -/

theorem piw_reset (e d q : Bool) : Sys2Proof.decode .piw (fourBits true e d q) = .ok (.reset e d q) := by
  revert e d q; decide

/-- The PIW of an edge at which a reset is sampled selects RESET. -/
theorem execWord_piw {s : State} (h : s.samplesReset = true) :
    execWord .piw s.piwOf s = execReset s.sig.inp.evt s.sig.inp.dat s.sig.inp.deq s := by
  unfold execWord State.piwOf
  rw [h, piw_reset]
  rfl

/-- With ASYNC = 1 the reset part of an edge always answers, and resets the domains that take a reset edge; where none does, its
effect is none. -/
theorem resetPart_next {s : State} (ha : s.cfg.async = true) : ∃ t, resetPart s = .next t ∧ ResetEffect s t := by
  unfold resetPart
  cases h : s.samplesReset
  · have h' : s.writeResets = false ∧ s.readResets = false := by simpa [State.samplesReset, ha] using h
    exact ⟨s, rfl, by simp [ResetEffect, KeepsRest, KeepsSyncFifo, KeepsWriteDomain, KeepsDecoder, KeepsWriteSide,
      KeepsReadSide, KeepsReadPort, ha, h']⟩
  · simpa [execWord_piw h] using reset_next s _ _ _

/-! ### ASYNC = 0 -/

/-- A cycle of ASYNC = 0 without reset: the decoder's part always answers, and the cycle is then the FIFO's operation. -/
theorem cycleSync_eq {s : State} (h : s.sig.inp.rst = false) :
    ∃ t, cycleSync s = execWord .fow t.fowOf t ∧
      DecoderEffect s t (decoderOf s) ∧ (t.sig.dec ≠ .none ↔ s.takesStep = true) := by
  obtain ⟨t, ht, hw⟩ := decoderPart_spec s
  refine ⟨t, ?_, hw⟩
  simp [cycleSync, h, ht]

/-- What a step of ASYNC = 0 did, if it answered a next state: a reset, or the decoder's effect on the sampled state and then the
FIFO's; the cycle is closed either way. -/
theorem syncStep_cases {s t : State} (ha : s.cfg.async = false) (h : step s = .next t) :
    (s.nextInput.rst = true ∧ ∃ u, ResetEffect s.sample u ∧ t = u.close s.sample) ∨
      (s.nextInput.rst = false ∧ ∃ u v, DecoderEffect s.sample u (decoderOf s.sample) ∧
        (u.sig.dec ≠ .none ↔ s.sample.takesStep = true) ∧
        FifoEffect u v (u.sig.inp.deq && u.count != 0) (u.sig.push && u.count != u.cfg.depth)
          (u.sig.push && u.count == u.cfg.depth) ∧ t = v.close s.sample) := by
  obtain ⟨w, hw, rfl⟩ := step_eq_next.1 h
  have hc : s.sample.cfg.async = false := ha
  simp only [cycle, hc, Bool.false_eq_true, if_false] at hw
  cases hr : s.nextInput.rst
  · refine .inr ⟨rfl, ?_⟩
    obtain ⟨u, hu, hd, hn⟩ := cycleSync_eq (s := s.sample) hr
    rw [hu] at hw
    exact ⟨u, w, hd, hn, fifo_effect hw, rfl⟩
  · refine .inl ⟨rfl, w, ?_, rfl⟩
    have hr' : s.sample.sig.inp.rst = true := hr
    unfold cycleSync at hw
    rw [if_pos hr', execWord_piw (by simpa [State.samplesReset, ha] using hr)] at hw
    exact reset_effect hw

/-! ### ASYNC = 1 -/

/-- An edge of ASYNC = 1 answers a next state only where the joint reset lets it through. -/
theorem cycleAsync_eq_next {s t : State} :
    cycleAsync s = .next t ↔ s.resetRefusal = none ∧ clockDomains s.trackReset = .next t := by
  unfold cycleAsync
  cases s.resetRefusal <;> simp

/-- The write domain's part of an edge of ASYNC = 1: the decoder's part always answers, and then the FIFO's write operation. -/
theorem writePart_eq (s : State) :
    ∃ t, writePart s = execWord .fowW t.fowWOf t ∧
      DecoderEffect s t (decoderOf s) ∧ (t.sig.dec ≠ .none ↔ s.takesStep = true) := by
  obtain ⟨t, ht, hw⟩ := decoderPart_spec s
  refine ⟨t, ?_, hw⟩
  simp [writePart, ht]

/-- The effect of the write domain's part of an edge: the decoder's on `s`, then that of the FIFO's write operation. -/
def WritePartEffect (s t : State) : Prop :=
  ∃ u, DecoderEffect s u (decoderOf s) ∧ (u.sig.dec ≠ .none ↔ s.takesStep = true) ∧
    WriteEffect u t (u.sig.push && !u.fullW) (u.sig.push && u.fullW)

/-- What the write domain's part of an edge did, if it answered a next state. -/
theorem writePart_effect {s t : State} (h : writePart s = .next t) : WritePartEffect s t := by
  obtain ⟨u, hu, hd, hn⟩ := writePart_eq s
  rw [hu] at h
  exact ⟨u, hd, hn, write_effect h⟩

/-- What the domains of an edge of ASYNC = 1 did, if they answered a next state: the domains that take a reset edge were reset, then
the read domain ran, then the write domain, each if it takes an edge without reset. -/
theorem clockDomains_cases {s t : State} (ha : s.cfg.async = true) (h : clockDomains s = .next t) :
    ∃ u v w, ResetEffect s u ∧
      (if s.readRuns then ReadEffect u v (u.sig.inp.deq && !u.emptyR) else v = u) ∧
      (if s.writeRuns then WritePartEffect v w else w = v) ∧ t = w.resolveStage1 s := by
  obtain ⟨u, hu, hr⟩ := resetPart_next ha
  unfold clockDomains at h
  rw [hu, andThen_next] at h
  obtain ⟨v, hv, h⟩ := andThen_eq_next.1 h
  obtain ⟨w, hw, h⟩ := andThen_eq_next.1 h
  cases h
  refine ⟨u, v, w, hr, ?_, ?_, rfl⟩
  · cases hx : s.readRuns <;> rw [hx] at hv
    · cases hv
      rfl
    · exact read_effect hv
  · cases hx : s.writeRuns <;> rw [hx] at hw
    · cases hw
      rfl
    · exact writePart_effect hw

/-- What a step of ASYNC = 1 did, if it answered a next state. -/
theorem asyncStep_cases {s t : State} (ha : s.cfg.async = true) (h : step s = .next t) :
    s.sample.resetRefusal = none ∧
      ∃ u v w, ResetEffect s.sample.trackReset u ∧
        (if s.sample.readRuns then ReadEffect u v (u.sig.inp.deq && !u.emptyR) else v = u) ∧
        (if s.sample.writeRuns then WritePartEffect v w else w = v) ∧
        t = (w.resolveStage1 s.sample.trackReset).close s.sample := by
  obtain ⟨x, hx, rfl⟩ := step_eq_next.1 h
  have hc : s.sample.cfg.async = true := ha
  simp only [cycle, hc, if_true] at hx
  obtain ⟨h1, h2⟩ := cycleAsync_eq_next.1 hx
  obtain ⟨u, v, w, hr, hv, hw, rfl⟩ := clockDomains_cases (s := s.sample.trackReset) ha h2
  exact ⟨h1, u, v, w, hr, hv, hw, rfl⟩

end Sys2Proof.Machine
end

