-- ==== Sys2Proof/Laws/PerInstr.lean ====
section
/-! SUPPORT. Statements about every operation, one lemma per constructor of `Instr`. -/

namespace Sys2Proof.Laws.EncodingFits

/-- The operation's word has no bit above its format's width: 6 for a DEW, 4 for an FOW or a PIW, 2 for an FOW_W or an FOW_R
(R74, R76, R82, R168). -/
def Statement (i : Instr) : Prop := (encode i).toNat < 2 ^ formatWidth (formatOf i)

theorem decIdle (a : Bool) : Statement (.decIdle a) := by unfold Statement; revert a; decide
theorem decStart (a : Bool) : Statement (.decStart a) := by unfold Statement; revert a; decide
theorem decData0 (a b : Bool) : Statement (.decData0 a b) := by unfold Statement; revert a b; decide
theorem decData1 (a b : Bool) : Statement (.decData1 a b) := by unfold Statement; revert a b; decide
theorem decData2 (a b : Bool) : Statement (.decData2 a b) := by unfold Statement; revert a b; decide
theorem decData3 (a b : Bool) : Statement (.decData3 a b) := by unfold Statement; revert a b; decide
theorem decData4 (a b : Bool) : Statement (.decData4 a b) := by unfold Statement; revert a b; decide
theorem decData5 (a b : Bool) : Statement (.decData5 a b) := by unfold Statement; revert a b; decide
theorem decData6 (a b : Bool) : Statement (.decData6 a b) := by unfold Statement; revert a b; decide
theorem decData7 (a b : Bool) : Statement (.decData7 a b) := by unfold Statement; revert a b; decide
theorem decParOkE : Statement .decParOkE := by unfold Statement; decide
theorem decParOkO : Statement .decParOkO := by unfold Statement; decide
theorem decParBadE : Statement .decParBadE := by unfold Statement; decide
theorem decParBadO : Statement .decParBadO := by unfold Statement; decide
theorem decStopOk (a : Bool) : Statement (.decStopOk a) := by unfold Statement; revert a; decide
theorem decStopBad (a : Bool) : Statement (.decStopBad a) := by unfold Statement; revert a; decide
theorem decRecoverB (a b : Bool) : Statement (.decRecoverB a b) := by unfold Statement; revert a b; decide
theorem decRecoverC (plow : BitVec 2) (ones0 dat : Bool) : Statement (.decRecoverC plow ones0 dat) := by
  unfold Statement; revert plow ones0 dat; decide
theorem decHold : Statement .decHold := by unfold Statement; decide
theorem fifoImpossible (a b : Bool) : Statement (.fifoImpossible a b) := by unfold Statement; revert a b; decide
theorem fifoIdle (a b : Bool) : Statement (.fifoIdle a b) := by unfold Statement; revert a b; decide
theorem fifoPush (a : Bool) : Statement (.fifoPush a) := by unfold Statement; revert a; decide
theorem fifoPushDrop (a : Bool) : Statement (.fifoPushDrop a) := by unfold Statement; revert a; decide
theorem fifoPop (a : Bool) : Statement (.fifoPop a) := by unfold Statement; revert a; decide
theorem fifoPopMiss (a : Bool) : Statement (.fifoPopMiss a) := by unfold Statement; revert a; decide
theorem fifoPushPop : Statement .fifoPushPop := by unfold Statement; decide
theorem fifoPushPopMiss : Statement .fifoPushPopMiss := by unfold Statement; decide
theorem fifoDropPop : Statement .fifoDropPop := by unfold Statement; decide
theorem wIdle (a : Bool) : Statement (.wIdle a) := by unfold Statement; revert a; decide
theorem wPush : Statement .wPush := by unfold Statement; decide
theorem wDrop : Statement .wDrop := by unfold Statement; decide
theorem rIdle (a : Bool) : Statement (.rIdle a) := by unfold Statement; revert a; decide
theorem rPop : Statement .rPop := by unfold Statement; decide
theorem rMiss : Statement .rMiss := by unfold Statement; decide
theorem reset (a b c : Bool) : Statement (.reset a b c) := by unfold Statement; revert a b c; decide

end Sys2Proof.Laws.EncodingFits
end

