-- ==== Sys2Proof/Tests/Slice0.lean ====
section
/-! SUPPORT. The model's own tests. Expected results come from the tables and vectors of spec/ (95_test_vectors.md, 30_encoding.md),
named in each comment, or by hand from the rule named. The last part holds a witness for each statement with hypotheses. -/

namespace Sys2Proof.Tests

open Sys2Proof Sys2Proof.Machine

/-! ### WellFormed: an ill-formed term for each check, which the check refuses -/

/-- R77: FIFO_IDLE cannot have F = E = 1. -/
theorem test_wf_idle : WellFormed (.fifoIdle true true) = false ∧ WellFormed (.fifoIdle true false) = true := by decide

/-- R77: FIFO_PUSH_DROP cannot have E = 1. -/
theorem test_wf_push_drop : WellFormed (.fifoPushDrop true) = false ∧ WellFormed (.fifoPushDrop false) = true := by decide

/-- R77: FIFO_POP_MISS cannot have F = 1. -/
theorem test_wf_pop_miss : WellFormed (.fifoPopMiss true) = false ∧ WellFormed (.fifoPopMiss false) = true := by decide

/-! ### Decoding: every row by a word written out from its pattern -/

/-- R75, slots 0 to 8, with DEW[1] and DEW[0] as the vectors T1 to T11 have them. -/
theorem test_decode_dew_data :
    decode .dew 0b000001#8 = .ok (.decIdle false) ∧ decode .dew 0b000000#8 = .ok (.decStart false) ∧
    decode .dew 0b000101#8 = .ok (.decData0 false true) ∧ decode .dew 0b001011#8 = .ok (.decData1 true true) ∧
    decode .dew 0b001100#8 = .ok (.decData2 false false) ∧ decode .dew 0b010001#8 = .ok (.decData3 false true) ∧
    decode .dew 0b010111#8 = .ok (.decData4 true true) ∧ decode .dew 0b011000#8 = .ok (.decData5 false false) ∧
    decode .dew 0b011101#8 = .ok (.decData6 false true) ∧ decode .dew 0b100010#8 = .ok (.decData7 true false) := by
  decide

/-- R75, slots 9 to 15, with the words of T13 to T25. -/
theorem test_decode_dew_rest :
    decode .dew 0b100101#8 = .ok .decParOkE ∧ decode .dew 0b100110#8 = .ok .decParOkO ∧
    decode .dew 0b100100#8 = .ok .decParBadE ∧ decode .dew 0b100111#8 = .ok .decParBadO ∧
    decode .dew 0b101011#8 = .ok (.decStopOk true) ∧ decode .dew 0b101010#8 = .ok (.decStopBad true) ∧
    decode .dew 0b101100#8 = .ok (.decRecoverB false false) ∧
    decode .dew 0b111101#8 = .ok (.decRecoverC 3 false true) ∧
    decode .dew 0b110011#8 = .ok (.decRecoverC 0 true true) ∧ decode .noWord 0#8 = .ok .decHold := by decide

/-- R77, the words of T40 to T53, and 1111 for row 1. -/
theorem test_decode_fow :
    decode .fow 0b1111#8 = .ok (.fifoImpossible true true) ∧ decode .fow 0b0001#8 = .ok (.fifoIdle false true) ∧
    decode .fow 0b1001#8 = .ok (.fifoPush true) ∧ decode .fow 0b1010#8 = .ok (.fifoPushDrop false) ∧
    decode .fow 0b0110#8 = .ok (.fifoPop true) ∧ decode .fow 0b0101#8 = .ok (.fifoPopMiss false) ∧
    decode .fow 0b1100#8 = .ok .fifoPushPop ∧ decode .fow 0b1101#8 = .ok .fifoPushPopMiss ∧
    decode .fow 0b1110#8 = .ok .fifoDropPop := by decide

/-- R168 and R82. -/
theorem test_decode_fowW_fowR_piw :
    decode .fowW 0b01#8 = .ok (.wIdle true) ∧ decode .fowW 0b10#8 = .ok .wPush ∧ decode .fowW 0b11#8 = .ok .wDrop ∧
    decode .fowR 0b00#8 = .ok (.rIdle false) ∧ decode .fowR 0b10#8 = .ok .rPop ∧ decode .fowR 0b11#8 = .ok .rMiss ∧
    decode .piw 0x8#8 = .ok (.reset false false false) ∧ decode .piw 0xE#8 = .ok (.reset true true false) := by decide

/-- What is no word: a bit above the format's width, a PIW without reset. -/
theorem test_decode_rejects :
    decode .dew 0x40#8 = .error .strayBits ∧ decode .fow 0x10#8 = .error .strayBits ∧
    decode .fowW 0x04#8 = .error .strayBits ∧ decode .piw 0x7#8 = .error .notReset ∧
    decode .noWord 0x01#8 = .error .strayBits := by decide

/-- The number of an operation's row in the DEW table of R75, from 0; 18 for any other operation. -/
def dewRow : Instr → Nat
  | .decIdle _ => 0
  | .decStart _ => 1
  | .decData0 _ _ => 2
  | .decData1 _ _ => 3
  | .decData2 _ _ => 4
  | .decData3 _ _ => 5
  | .decData4 _ _ => 6
  | .decData5 _ _ => 7
  | .decData6 _ _ => 8
  | .decData7 _ _ => 9
  | .decParOkE => 10
  | .decParOkO => 11
  | .decParBadE => 12
  | .decParBadO => 13
  | .decStopOk _ => 14
  | .decStopBad _ => 15
  | .decRecoverB _ _ => 16
  | .decRecoverC _ _ _ => 17
  | _ => 18

/-- The masks and patterns of the DEW rows, copied from spec/opcode_table.json. -/
def dewTable : List (Nat × Nat) :=
  [(0x3D, 0x01), (0x3D, 0x00), (0x3C, 0x04), (0x3C, 0x08), (0x3C, 0x0C), (0x3C, 0x10), (0x3C, 0x14), (0x3C, 0x18),
   (0x3C, 0x1C), (0x3C, 0x20)] ++
  [(0x3F, 0x25), (0x3F, 0x26), (0x3F, 0x24), (0x3F, 0x27), (0x3D, 0x29), (0x3D, 0x28), (0x3C, 0x2C), (0x30, 0x30)]

/-- R75: "The rows do not overlap, and together they cover all 64 DEW values", and the decoder follows them. -/
theorem test_dew_rows_disjoint_and_complete :
    ∀ w : Fin 64, (List.range 18).filter (fun k => w.val &&& (dewTable.getD k (0, 1)).1 == (dewTable.getD k (0, 1)).2) =
      [dewRow (decodeDew (BitVec.ofNat 8 w.val))] := by decide

/-- The number of an operation's row in the FOW table of R77, from 0; 9 for any other operation. -/
def fowRow : Instr → Nat
  | .fifoImpossible _ _ => 0
  | .fifoIdle _ _ => 1
  | .fifoPush _ => 2
  | .fifoPushDrop _ => 3
  | .fifoPop _ => 4
  | .fifoPopMiss _ => 5
  | .fifoPushPop => 6
  | .fifoPushPopMiss => 7
  | .fifoDropPop => 8
  | _ => 9

/-- The masks and patterns of the FOW rows, copied from spec/opcode_table.json, in the order they are tried. -/
def fowTable : List (Nat × Nat) :=
  [(0x3, 0x3), (0xC, 0x0), (0xE, 0x8), (0xE, 0xA), (0xD, 0x4), (0xD, 0x5), (0xF, 0xC), (0xF, 0xD), (0xF, 0xE)]

/-- R77: "Try the rows in order, and the first match wins." -/
theorem test_fow_first_match_wins :
    ∀ w : Fin 16, (List.range 9).find? (fun k => w.val &&& (fowTable.getD k (0, 1)).1 == (fowTable.getD k (0, 1)).2) =
      some (fowRow (decodeFow (BitVec.ofNat 8 w.val))) := by decide

/-! ### One step -/

/-- The next state of a result meets `f`. -/
def after (r : Result) (f : State → Bool) : Bool :=
  match r with
  | .next t => f t
  | _ => false

/-- The newest record of a state meets `f`. -/
def newest (t : State) (f : CycleRecord → Bool) : Bool :=
  match t.trace with
  | r :: _ => f r
  | [] => false

/-- A state of ASYNC = 0: the registers in the order 95_test_vectors.md writes them, and the storage. -/
def sync (depth p : Nat) (acc : Byte) (ones head tail count : Nat) (dropCnt : Byte) (mem : Memory) : State :=
  { State.resetWith ⟨depth, false, 2⟩ with
    p := BitVec.ofNat 4 p, acc := acc, ones := BitVec.ofNat 4 ones, head := head, tail := tail, count := count,
    dropCnt := dropCnt, mem := mem }

/-- One step of ASYNC = 0 with the given `evt`, `dat` and `deq`. -/
def cycle1 (s : State) (evt dat deq : Bool) : Result :=
  step { s with inputs := [.cycle ⟨.clk, false, false, evt, dat, deq⟩] }

/-- A decoder vector of 95_test_vectors.md, section 3: one step cycle from `p, acc, ones`, the registers after it, the outcome. -/
def decVector (p : Nat) (acc : Byte) (ones : Nat) (dat : Bool) (p' : Nat) (acc' : Byte) (ones' : Nat) (o : DecOutcome) :
    Bool :=
  after (cycle1 (sync 4 p acc ones 0 0 0 0 []) true dat false) fun t =>
    t.p == BitVec.ofNat 4 p' && t.acc == acc' && t.ones == BitVec.ofNat 4 ones' && t.ack && newest t (fun r => r.dec == o)

theorem test_T1_decIdle : decVector 0 0x00 0 true 0 0x00 0 .idleNoise = true := by decide

theorem test_T2_decStart : decVector 0 0x00 0 false 1 0x00 0 (.absorb 1) = true := by decide

theorem test_T3_decData0 : decVector 1 0x00 0 true 2 0x01 1 (.absorb 2) = true := by decide

theorem test_T5_decData1 : decVector 2 0x01 1 true 3 0x03 2 (.absorb 3) = true := by decide

theorem test_T6_decData2 : decVector 3 0x03 2 false 4 0x03 2 (.absorb 4) = true := by decide

theorem test_T7_decData3 : decVector 4 0x03 2 true 5 0x0B 3 (.absorb 5) = true := by decide

theorem test_T8_decData4 : decVector 5 0x0B 3 true 6 0x1B 4 (.absorb 6) = true := by decide

/-- 40_decoder.md R109's example, with dat = 1 instead: bit 5 by hand. -/
theorem test_decData5 : decVector 6 0x1C 3 true 7 0x3C 4 (.absorb 7) = true := by decide

theorem test_T10_decData6 : decVector 7 0x1B 4 true 8 0x5B 5 (.absorb 8) = true := by decide

theorem test_T12_decData7 : decVector 8 0x7F 7 true 9 0xFF 8 (.absorb 9) = true := by decide

theorem test_T13_decParOkE : decVector 9 0xFF 8 true 10 0xFF 8 (.absorb 10) = true := by decide

theorem test_T15_decParOkO : decVector 9 0x5B 5 false 10 0x5B 5 (.absorb 10) = true := by decide

theorem test_T17_decParBadE : decVector 9 0xFF 8 false 0 0x00 0 (.parityErr 0xFF) = true := by decide

theorem test_T18_decParBadO : decVector 9 0x5B 5 true 0 0x00 0 (.parityErr 0x5B) = true := by decide

theorem test_T20_decStopOk : decVector 10 0xFF 8 true 0 0x00 0 (.frameOk 0xFF) = true := by decide

theorem test_T22_decStopBad : decVector 10 0x5B 5 false 0 0x00 0 (.stopErr 0x5B) = true := by decide

theorem test_T23_decRecoverB : decVector 11 0x12 2 false 0 0x00 0 (.recover 11) = true := by decide

theorem test_T24_decRecoverC : decVector 15 0xFF 8 true 0 0x00 0 (.recover 15) = true := by decide

/-- T26, and T32: evt still high while ack = 1 is no step. -/
theorem test_T26_decHold :
    after (cycle1 (sync 4 5 0x0C 2 0 0 0 0 []) false true false)
      (fun t => t.p == 5 && t.acc == 0x0C && t.ones == 2 && !t.ack && newest t (fun r => r.dec == .none)) = true ∧
    after (cycle1 { sync 4 5 0x0C 2 0 0 0 0 [] with ack := true } true true false)
      (fun t => t.p == 5 && t.ones == 2 && t.ack && newest t (fun r => r.dec == .none)) = true := by decide

/-- A FIFO vector of 95_test_vectors.md, section 4: a cycle that pushes `enq`, if any, with `deq`; the FIFO's registers after it, a
storage entry after it, and `rd_valid`, with `rd_data` where it is specified. -/
def fifoVector (depth head tail count : Nat) (dropCnt : Byte) (mem : Memory) (enq : Option Byte) (deq : Bool)
    (rd : Bool × Option Byte) (head' tail' count' : Nat) (dropCnt' : Byte) (entry : Option Host.Cell) : Bool :=
  let s := sync depth (if enq.isSome then 10 else 0) (enq.getD 0) 0 head tail count dropCnt mem
  after (cycle1 s enq.isSome true deq) fun t =>
    t.head == head' && t.tail == tail' && t.count == count' && t.dropCnt == dropCnt' &&
    (match entry with
      | some c => t.memRead c.1 == c.2
      | none => t.mem == mem) &&
    newest t fun r => r.rdValid == rd.1 &&
      (match rd.2 with
        | some v => r.rdData == v
        | none => true)

theorem test_T40_fifoIdle :
    fifoVector 4 1 3 2 0 [(1, 0x11)] none false (false, some 0x11) 1 3 2 0 none = true := by decide

theorem test_T53_fifoIdle_empty : fifoVector 4 0 0 0 0 [] none false (false, none) 0 0 0 0 none = true := by decide

theorem test_T41_fifoPush :
    fifoVector 4 0 0 0 0 [] (some 0x05) false (false, none) 0 1 1 0 (some (0, 0x05)) = true := by decide

/-- T42, and T58 with DEPTH = 3. -/
theorem test_T42_fifoPush_wraps :
    fifoVector 4 0 3 3 0 [(0, 0x01)] (some 0x75) false (false, some 0x01) 0 0 4 0 (some (3, 0x75)) = true ∧
    fifoVector 3 0 2 2 0 [] (some 0x42) false (false, none) 0 0 3 0 (some (2, 0x42)) = true := by decide

theorem test_T43_fifoPushDrop :
    fifoVector 4 0 0 4 0 [(0, 0x05)] (some 0x12) false (false, some 0x05) 0 0 4 1 none = true := by decide

theorem test_T44_fifoPushDrop_saturated :
    fifoVector 4 2 2 4 255 [(2, 0x05)] (some 0x34) false (false, some 0x05) 2 2 4 255 none = true ∧
    fifoVector 4 0 0 4 254 [] (some 0x34) false (false, none) 0 0 4 255 none = true := by decide

theorem test_T46_fifoPop :
    fifoVector 4 3 0 1 0 [(3, 0x1C)] none true (true, some 0x1C) 0 0 0 0 none = true := by decide

theorem test_T47_fifoPop_from_full :
    fifoVector 4 0 0 4 0 [(0, 0x05)] none true (true, some 0x05) 1 0 3 0 none = true := by decide

theorem test_T48_fifoPopMiss : fifoVector 4 2 2 0 7 [] none true (false, none) 2 2 0 7 none = true := by decide

theorem test_T50_fifoPushPop :
    fifoVector 4 3 1 2 0 [(3, 0xAA)] (some 0x55) true (true, some 0xAA) 0 2 2 0 (some (1, 0x55)) = true := by decide

/-- T51, and T57 with DEPTH = 1. -/
theorem test_T51_fifoPushPopMiss :
    fifoVector 4 1 1 0 0 [] (some 0x1C) true (false, none) 1 2 1 0 (some (1, 0x1C)) = true ∧
    fifoVector 1 0 0 0 2 [] (some 0x45) true (false, none) 0 0 1 2 (some (0, 0x45)) = true := by decide

/-- T52, and T56 with DEPTH = 1. -/
theorem test_T52_fifoDropPop :
    fifoVector 4 0 0 4 0 [(0, 0x05)] (some 0x33) true (true, some 0x05) 1 0 3 1 none = true ∧
    fifoVector 1 0 0 1 1 [(0, 0x42)] (some 0x44) true (true, some 0x42) 0 0 0 2 none = true := by decide

/-- R132: refused. -/
theorem test_fifoImpossible :
    (match exec (.fifoImpossible true false) State.reset with
      | .refused e => e == .fullAndEmpty
      | _ => false) = true := by decide

/-- T60: a bad stop bit with deq = 1 on an empty FIFO is DEC_STOP_BAD and FIFO_POP_MISS in one cycle. -/
theorem test_T60_stopBad_popMiss :
    after (cycle1 (sync 4 10 0x75 5 0 0 0 0 []) true false true)
      (fun t => t.p == 0 && t.acc == 0 && t.ones == 0 && t.count == 0 && t.mem == [] &&
        newest t (fun r => r.dec == .stopErr 0x75 && r.cons == .miss && r.prod == .none)) = true := by decide

/-- A state of ASYNC = 1 with DEPTH = 4 and SYNC_STAGES = 2. -/
def async (p : Nat) (acc : Byte) (wbin : Nat) (rq : List Nat) (rbin : Nat) (wq : List Nat) (mem : Memory) : State :=
  { State.resetWith ⟨4, true, 2⟩ with
    p := BitVec.ofNat 4 p, acc := acc, wbin := wbin, wgray := gray wbin, rq := rq, rbin := rbin, rgray := gray rbin,
    wq := wq, mem := mem }

/-- One edge of ASYNC = 1. -/
def edge1 (s : State) (e : ClockEdge) (evt deq : Bool) : Result :=
  step { s with inputs := [.cycle ⟨e, false, false, evt, true, deq⟩] }

/-- R169's example, `wbin=3, rseen=1`: count_w = 2, unchanged. -/
theorem test_wIdle :
    after (edge1 (async 0 0 3 [1, 1] 1 [2, 2] []) .clk false false)
      (fun t => t.countW == 2 && t.wbin == 3 && t.rq == [1, 1] && t.wq == [2, 2]) = true := by decide

/-- T71. -/
theorem test_T71_wPush :
    after (edge1 (async 10 0x75 0b011 [0, 0] 0 [0, 0] []) .clk true false)
      (fun t => t.memRead 3 == 0x75 && t.wbin == 0b100 && t.wgray == 0b110 && t.countW == 4 && t.fullW) = true := by
  decide

/-- T72, and T75's first cycle: the drop is judged on `rseen`, though the read side has freed an entry. -/
theorem test_T72_wDrop :
    after (edge1 (async 10 0x75 0b100 [0, 0] 0 [0, 0] []) .clk true false)
      (fun t => t.dropCnt == 1 && t.wbin == 0b100 && t.mem == []) = true ∧
    after (edge1 (async 10 0x75 0b100 [0, 0] 1 [6, 6] []) .clk true false)
      (fun t => t.dropCnt == 1 && t.rq == [1, 0]) = true := by decide

/-- R172 with R165: `wq` shifts on an edge of `clk_r`. -/
theorem test_rIdle :
    after (edge1 (async 0 0 1 [0, 0] 0 [0, 0] [(0, 0x1C)]) .clkR false false)
      (fun t => t.wq == [1, 0] && t.rbin == 0 && t.rq == [0, 0] && newest t (fun r => !r.rdValid)) = true := by decide

/-- T73. -/
theorem test_T73_rPop :
    after (edge1 (async 0 0 0b100 [2, 2] 0b011 [6, 6] [(3, 0x75)]) .clkR false true)
      (fun t => t.rbin == 0b100 && t.rgray == 0b110 && t.countR == 0 && t.emptyR &&
        newest t (fun r => r.rdValid && r.rdData == 0x75)) = true := by decide

/-- T74, cycle 2: the byte is accepted but not yet seen. -/
theorem test_T74_rMiss :
    after (edge1 (async 0 0 1 [0, 0] 0 [1, 0] [(0, 0x1C)]) .clkR false true)
      (fun t => t.rbin == 0 && !t.emptyR && newest t (fun r => !r.rdValid && r.cons == .miss)) = true := by decide

/-- T70, and that the wrap changes one bit. -/
theorem test_T70_gray :
    (List.range 8).map gray = [0b000, 0b001, 0b011, 0b010, 0b110, 0b111, 0b101, 0b100] ∧
    ((List.range 8).map gray).map (ungray 4) = List.range 8 := by decide

/-- T81 and T82: PIW 0xF resets like 0x8; the storage stays. -/
theorem test_T81_T82_reset :
    after (step { sync 4 5 0x0D 3 0 2 2 9 [(0, 1), (1, 2)] with inputs := [.cycle (portOfPiw 0xF)] })
      (fun t => t.p == 0 && t.acc == 0 && t.ones == 0 && !t.ack && t.head == 0 && t.tail == 0 && t.count == 0 &&
        t.dropCnt == 0 && t.mem == [(0, 1), (1, 2)] &&
        newest t (fun r => !r.rdValid && r.rdData == 1 && r.count == 2 && r.dec == .none)) = true := by decide

/-- An edge of ASYNC = 1 with nothing to do but the resets, from where the two domains stand in a joint reset. -/
def resetEdge (w r : DomainReset) (e : ClockEdge) (rst rstR : Bool) : Result :=
  step { async 0 0 0 [0, 0] 0 [0, 0] [] with
    wReset := w, rReset := r, inputs := [.cycle ⟨e, rst, rstR, false, false, false⟩] }

/-- The refusal of a result is `e`. -/
def refuses (r : Result) (e : Refusal) : Bool :=
  match r with
  | .refused e' => e' == e
  | _ => false

/-- R178, U5: a reset of one domain alone is refused, at an edge of both clocks and when the other clock next rises without its
reset; so is a domain released after SYNC_STAGES of its own edges. -/
theorem test_async_reset_refused :
    refuses (resetEdge .running .running .both true false) .resetOfOneDomain = true ∧
    refuses (resetEdge (.held 1) .pending .clkR true false) .resetOfOneDomain = true ∧
    refuses (resetEdge (.held 2) (.held 3) .clk false true) .resetTooShort = true := by decide

/-- R161, R178: `rst` is sampled on `clk` alone, so at an edge of `clk_r` it starts no reset; and a domain that was in reset for
SYNC_STAGES + 1 edges of its own clock is released while the other is still in reset, or has been released before it. -/
theorem test_async_reset_allowed :
    after (resetEdge .running .running .clkR true false) (fun t => t.wReset == .running && t.rReset == .running) = true ∧
    after (resetEdge (.held 3) (.held 3) .both false true) (fun t => t.wReset == .running && t.rReset == .held 4) = true ∧
    after (resetEdge .running (.held 4) .both false false) (fun t => t.wReset == .running && t.rReset == .running) = true ∧
    after (resetEdge .running .running .clk true true) (fun t => t.wReset == .held 1 && t.rReset == .pending) = true := by
  decide

/-- R181: the codes a trace entry has in a cycle of DEC_STOP_OK with FIFO_DROP_POP. -/
theorem test_outcome_codes :
    after (cycle1 (sync 4 10 0x33 4 0 0 4 0 [(0, 0x05)]) true true true)
      (fun t => newest t (fun r => decCode r.dec == 5 && prodCode r.prod == 2 && consCode r.cons == 1)) = true := by decide

/-! ### Stimulus programs -/

/-- P1's statements stand for the PIW string that 95_test_vectors.md gives them. -/
theorem test_P1_piw :
    [Stmt.rst, .plusDeq (.frame 0x1C)].flatMap Stmt.expand =
      [0x8#4, 5, 1, 5, 1, 5, 1, 7, 3, 7, 3, 7, 3, 5, 1, 5, 1, 5, 1, 5, 1, 7, 3].map (fun w => .cycle (portOfPiw w)) := by
  decide

/-- P6's bad frame, slot by slot. -/
theorem test_P6_bad_stop :
    (Stmt.frameBadStop 0x1C).expand =
      [4, 0, 4, 0, 4, 0, 6, 2, 6, 2, 6, 2, 4, 0, 4, 0, 4, 0, 4, 0, 4, 0].map
        (fun w => .cycle { portOfPiw w with rst := false }) := by decide

/-- R82: no ` +DEQ` on RST. -/
theorem test_no_deq_on_rst : Stmt.ok (.plusDeq .rst) = false ∧ Stmt.ok (.plusDeq (.wait 2)) = true := by decide

/-! ### The host's fetch word -/

/-- A one-byte table word is read as a DEW; a two-byte one names its format in the second byte (log entry 5). -/
theorem test_table_word :
    decodeTableWord 8 0x29 = some (.decStopOk false) ∧ decodeTableWord 16 0x108 = some (.fifoPush false) ∧
    decodeTableWord 16 0x202 = some .wPush ∧ decodeTableWord 16 0x303 = some .rMiss ∧
    decodeTableWord 16 0x408 = some (.reset false false false) ∧ decodeTableWord 0 0 = some .decHold ∧
    decodeTableWord 8 0x40 = none := by decide

/-- The next step runs the word: a push through DEC_STOP_OK, a refused FIFO_IMPOSSIBLE. -/
theorem test_fetch_word :
    after (step (State.reset.withFetchWord 8 0x29)) (fun t => newest t (fun r => r.dec == .frameOk 0)) = true ∧
    after (step (State.reset.withFetchWord 16 0x202)) (fun t => newest t (fun r => r.prod == .accept 0)) = true ∧
    (match step (State.reset.withFetchWord 16 0x10B) with
      | .refused e => e == .fullAndEmpty
      | _ => false) = true := by decide

/-! ### Witnesses: states and operands that meet the hypotheses of the statements that have some, clause by clause -/

/-- A result that passes a test is a next state. -/
theorem next_of_after {r : Result} {f : State → Bool} (h : after r f = true) : ∃ t, r = .next t := by
  cases r with
  | next t => exact ⟨t, rfl⟩
  | fault _ => exact absurd h (by simp [after])
  | refused _ => exact absurd h (by simp [after])

/-- ASYNC = 0, DEPTH = 4, two bytes held, a valid frame about to be pushed. -/
def ready : State := sync 4 10 0x75 5 3 1 2 0 [(0, 0x22), (3, 0x11)]

/-- `ready` with the given inputs. -/
def readyWith (rst evt dat deq : Bool) : State := { ready with inputs := [.cycle ⟨.clk, rst, false, evt, dat, deq⟩] }

/-- ASYNC = 1, DEPTH = 4, two bytes held, `rq` and `wq` behind, a valid frame about to be pushed. -/
def crossing : State :=
  { async 10 0x75 3 [gray 1, gray 0] 1 [gray 3, gray 2] [(0, 0x11), (1, 0x22), (2, 0x33)] with ones := 5 }

/-- `crossing` at the given edge with a push and a dequeue asked for. -/
def crossingAt (e : ClockEdge) : State := { crossing with inputs := [.cycle ⟨e, false, false, true, true, true⟩] }

/-- `crossing` at a joint reset edge. -/
def crossingReset (e : ClockEdge) : State := { crossing with inputs := [.cycle ⟨e, true, true, false, false, false⟩] }

/-- ASYNC = 1, both domains' registers at their reset values, the domains standing in a joint reset as given, a push and a dequeue
asked for. -/
def resetting (w r : DomainReset) (e : ClockEdge) (rst rstR : Bool) : State :=
  { async 10 0x75 0 [0, 0] 0 [0, 0] [] with
    ones := 5, wReset := w, rReset := r, inputs := [.cycle ⟨e, rst, rstR, true, true, true⟩] }

theorem witness_ResetRestoresEveryRegister : ready.cfg.async = false := by decide

theorem witness_AsyncResetRestoresTheClockedDomains :
    (crossingReset .clk).sample.cfg.async = true ∧
    ((crossingReset .both).sample.sig.inp.rst = true ∧ (crossingReset .both).sample.sig.inp.rstR = true) ∧
    risesClk .clk = true ∧ risesClkR .clk = false ∧ risesClk .clkR = false ∧ risesClkR .clkR = true ∧
    risesClk .both = true ∧ risesClkR .both = true := by decide

theorem witness_ResetCycleOverridesEveryInput :
    (readyWith true true true true).cfg.async = false ∧ (readyWith true true true true).nextInput.rst = true ∧
    (readyWith true true true true).count ≠ 0 := by decide

theorem witness_ResetStateIsIdleAndEmpty :
    LegalConfig ⟨1, false, 2⟩ ∧ LegalConfig ⟨3, false, 2⟩ ∧ LegalConfig ⟨2, true, 2⟩ ∧ LegalConfig ⟨4, true, 3⟩ := by
  decide

theorem witness_DataSlotAbsorbsItsBit_first :
    dataInstrs[0]? = some Instr.decData0 ∧ (sync 4 1 0 0 0 0 0 0 []).DecoderInv ∧
    (sync 4 1 0 0 0 0 0 0 []).p.toNat = 0 + 1 := ⟨rfl, by decide, by decide⟩

theorem witness_DataSlotAbsorbsItsBit_last :
    dataInstrs[7]? = some Instr.decData7 ∧ (sync 4 8 0x7F 7 0 0 0 0 []).DecoderInv ∧
    (sync 4 8 0x7F 7 0 0 0 0 []).p.toNat = 7 + 1 := ⟨rfl, by decide, by decide⟩

theorem witness_ParitySlotDemandsOddParity :
    (sync 4 9 0xFF 8 0 0 0 0 []).p = 9 ∧ (sync 4 9 0xFF 8 0 0 0 0 []).ones.toNat = popcount 0xFF ∧
    (sync 4 9 0x1C 3 0 0 0 0 []).p = 9 ∧ (sync 4 9 0x1C 3 0 0 0 0 []).ones.toNat = popcount 0x1C := by decide

theorem witness_StopBitOnePushesTheByte_accepted :
    (readyWith false true true true).cfg.async = false ∧ (readyWith false true true true).SyncInv ∧
    (readyWith false true true true).p = 10 ∧ (readyWith false true true true).ack = false ∧
    (readyWith false true true true).nextInput.rst = false ∧ (readyWith false true true true).nextInput.evt = true ∧
    (readyWith false true true true).nextInput.dat = true ∧
    (readyWith false true true true).count ≠ (readyWith false true true true).cfg.depth :=
  ⟨by decide, by decide, by decide, by decide, by decide, by decide, by decide, by decide⟩

/-- A full FIFO, as in T52, with the same inputs. -/
def fullWith : State :=
  { sync 4 10 0x33 4 0 0 4 0 [(0, 0x05)] with inputs := [.cycle ⟨.clk, false, false, true, true, true⟩] }

theorem witness_StopBitOnePushesTheByte_dropped :
    fullWith.cfg.async = false ∧ fullWith.SyncInv ∧ fullWith.p = 10 ∧ fullWith.ack = false ∧
    fullWith.nextInput.rst = false ∧ fullWith.nextInput.evt = true ∧ fullWith.nextInput.dat = true ∧
    fullWith.count = fullWith.cfg.depth :=
  ⟨by decide, by decide, by decide, by decide, by decide, by decide, by decide, by decide⟩

theorem witness_HoldLeavesTheDecoder :
    ¬ ((readyWith false false true true).sample.sig.inp.evt = true ∧
      (readyWith false false true true).sample.ack = false) ∧
    ¬ ({ readyWith false true true true with ack := true }.sample.sig.inp.evt = true ∧
      { readyWith false true true true with ack := true }.sample.ack = false) := by decide

/-- The smallest DEPTH, empty and full. -/
theorem witness_FullAndEmptyIsRefused :
    1 ≤ (sync 1 0 0 0 0 0 0 0 []).cfg.depth ∧ 1 ≤ (sync 1 0 0 0 0 0 1 0 []).cfg.depth := by decide

theorem witness_IdleAndMissLeaveTheFifo : (false && true) = false ∧ (true && false) = false ∧ ready.count ≠ 0 := by decide

/-- Both ends of the range of `count` for a push: 0 and DEPTH - 1. -/
theorem witness_PushStoresTheByteAtTail :
    ((sync 4 0 0 0 0 0 0 0 []).SyncInv ∧ (sync 4 0 0 0 0 0 0 0 []).count ≠ (sync 4 0 0 0 0 0 0 0 []).cfg.depth) ∧
    ((sync 4 0 0 0 0 3 3 0 []).SyncInv ∧ (sync 4 0 0 0 0 3 3 0 []).count ≠ (sync 4 0 0 0 0 3 3 0 []).cfg.depth) := by
  decide

/-- Both ends of the range of `count` for a pop: 1 and DEPTH. -/
theorem witness_PopDeliversTheHeadByte :
    ((sync 4 0 0 0 3 0 1 0 []).SyncInv ∧ (sync 4 0 0 0 3 0 1 0 []).count ≠ 0) ∧
    ((sync 4 0 0 0 0 0 4 0 []).SyncInv ∧ (sync 4 0 0 0 0 0 4 0 []).count ≠ 0) := by decide

theorem witness_PushPopMovesBothPointers :
    ready.SyncInv ∧ ready.count ≠ 0 ∧ ready.count ≠ ready.cfg.depth := by decide

theorem witness_PushWithMissDoesNotBypass :
    ((sync 4 0 0 0 1 1 0 0 []).SyncInv ∧ (sync 4 0 0 0 1 1 0 0 []).count = 0) ∧
    ((sync 1 0 0 0 0 0 0 0 []).SyncInv ∧ (sync 1 0 0 0 0 0 0 0 []).count = 0) := by decide

theorem witness_DropWithHitKeepsTheStorage :
    (fullWith.SyncInv ∧ fullWith.count = fullWith.cfg.depth) ∧
    ((sync 1 0 0 0 0 0 1 0 []).SyncInv ∧ (sync 1 0 0 0 0 0 1 0 []).count = (sync 1 0 0 0 0 0 1 0 []).cfg.depth) := by
  decide

theorem crossing_pointers : crossing.PointerInv := by decide

theorem crossing_lags : crossing.LagInv := by decide

theorem witness_WritePushStoresAtTheWritePointer :
    LegalConfig crossing.cfg ∧ crossing.cfg.async = true ∧ crossing.PointerInv ∧ crossing.LagInv ∧
    crossing.fullW = false ∧
    after (exec .wPush (async 10 0x75 3 [0, 0] 0 [2, 2] [])) (fun t => t.rseen == 0) = true :=
  ⟨by decide, by decide, crossing_pointers, crossing_lags, by decide, by decide⟩

theorem witness_ReadPopDeliversTheByteAtTheReadPointer :
    LegalConfig crossing.cfg ∧ crossing.cfg.async = true ∧ crossing.PointerInv ∧ crossing.LagInv ∧
    crossing.emptyR = false ∧
    after (exec .rPop (async 0 0 3 [0, 0] 0 [2, 2] [])) (fun t => t.wseen == 3) = true :=
  ⟨by decide, by decide, crossing_pointers, crossing_lags, by decide, by decide⟩

theorem witness_DecodeReadsBackEveryEncoding :
    WellFormed (.decRecoverC 2 true false) = true ∧ WellFormed (.fifoIdle true false) = true ∧
    WellFormed .decHold = true := by decide

theorem witness_EveryDecodedWordIsTheEncoding :
    Format.dew ≠ .noWord ∧ decode .dew 0x35#8 = .ok (.decRecoverC 1 false true) ∧
    Format.piw ≠ .noWord ∧ decode .piw 0x0F#8 = .ok (.reset true true true) := by decide

theorem witness_SyncStepRunsTheDecodedOperations :
    ∃ t, (readyWith false true true true).cfg.async = false ∧ (readyWith false true true true).nextInput.rst = false ∧
      decode .dew (readyWith false true true true).sample.dewOf = .ok (.decStopOk true) ∧
      exec (.decStopOk true) (readyWith false true true true).sample = .next t ∧
      decode .fow t.fowOf = .ok .fifoPushPop :=
  ⟨_, by decide, by decide, by decide, rfl, by decide⟩

theorem witness_SyncStepRunsTheDecodedOperations_hold :
    ∃ t, (readyWith false false true true).cfg.async = false ∧ (readyWith false false true true).nextInput.rst = false ∧
      ((readyWith false false true true).nextInput.evt && !(readyWith false false true true).ack) = false ∧
      exec .decHold (readyWith false false true true).sample = .next t ∧ decode .fow t.fowOf = .ok (.fifoPop false) :=
  ⟨_, by decide, by decide, by decide, rfl, by decide⟩

/-- ASYNC = 0; a joint reset; an edge of `clk` alone and one of `clk_r` alone, each with the other domain's reset 0. -/
theorem witness_ResetStepRunsTheDecodedReset :
    ((readyWith true true false true).nextInput.rst = true ∧ (readyWith true true false true).cfg.async = false) ∧
    ((crossingReset .both).cfg.async = true ∧ (crossingReset .both).nextInput.rst = true ∧
      (crossingReset .both).nextInput.rstR = true) ∧
    ((resetting (.held 3) (.held 3) .clk true false).nextInput.edge = .clk ∧
      (resetting (.held 3) (.held 3) .clk true false).nextInput.rst = true) ∧
    ((resetting (.held 3) (.held 3) .clkR false true).nextInput.edge = .clkR ∧
      (resetting (.held 3) (.held 3) .clkR false true).nextInput.rstR = true) := by decide

/-- R178 lets a domain run: outside a reset; after SYNC_STAGES + 1 edges in reset, at an edge at which the other is still reset. -/
theorem mayRun_boundary :
    MayRun 2 .running .running false ∧ MayRun 2 (.held 3) (.held 1) true ∧ ¬ MayRun 2 (.held 2) (.held 3) false ∧
    ¬ MayRun 2 .running .running true :=
  ⟨⟨.inl rfl, by decide, by decide⟩, ⟨.inr ⟨3, rfl, by decide⟩, by decide, by decide⟩,
    fun h => by rcases h.1 with h | ⟨n, h, hn⟩ <;> cases h; exact absurd hn (by decide),
    fun h => absurd rfl (h.2.2 rfl).1⟩

/-- Outside a reset. -/
theorem witness_AsyncStepRunsTheDecodedOperations_clk :
    ∃ t, (crossingAt .clk).cfg.async = true ∧ (crossingAt .clk).nextInput.rst = false ∧
      MayRun 2 (crossingAt .clk).wReset (crossingAt .clk).rReset false ∧
      decode .dew (crossingAt .clk).sample.dewOf = .ok (.decStopOk true) ∧ (crossingAt .clk).nextInput.edge = .clk ∧
      exec (.decStopOk true) (crossingAt .clk).sample.trackReset = .next t ∧ decode .fowW t.fowWOf = .ok .wPush :=
  ⟨_, by decide, by decide, mayRun_boundary.1, by decide, by decide, rfl, by decide⟩

/-- The write domain's first edge after a completed joint reset. -/
theorem witness_AsyncStepRunsTheDecodedOperations_released :
    let s := resetting (.held 3) (.held 3) .clk false false
    ∃ t, s.cfg.async = true ∧ s.nextInput.rst = false ∧ s.wReset = .held 3 ∧ s.cfg.syncStages + 1 ≤ 3 ∧
      s.rReset ≠ .pending ∧ decode .dew s.sample.dewOf = .ok (.decStopOk true) ∧
      exec (.decStopOk true) s.sample.trackReset = .next t ∧ decode .fowW t.fowWOf = .ok .wPush :=
  ⟨_, by decide, by decide, by decide, by decide, by decide, by decide, rfl, by decide⟩

theorem witness_AsyncStepRunsTheDecodedOperations_clkR :
    (crossingAt .clkR).cfg.async = true ∧ (crossingAt .clkR).nextInput.rstR = false ∧
      MayRun 2 (crossingAt .clkR).rReset (crossingAt .clkR).wReset false ∧
      decode .dew (crossingAt .clkR).sample.dewOf = .ok (.decStopOk true) ∧ (crossingAt .clkR).nextInput.edge = .clkR ∧
      decode .fowR (crossingAt .clkR).sample.trackReset.fowROf = .ok .rPop :=
  ⟨by decide, by decide, mayRun_boundary.1, by decide, by decide, by decide⟩

theorem witness_AsyncStepRunsTheDecodedOperations_both :
    ∃ t u, (crossingAt .both).cfg.async = true ∧ (crossingAt .both).nextInput.rst = false ∧
      (crossingAt .both).nextInput.rstR = false ∧ MayRun 2 (crossingAt .both).wReset (crossingAt .both).rReset false ∧
      decode .dew (crossingAt .both).sample.dewOf = .ok (.decStopOk true) ∧ (crossingAt .both).nextInput.edge = .both ∧
      decode .fowR (crossingAt .both).sample.trackReset.fowROf = .ok .rPop ∧
      exec .rPop (crossingAt .both).sample.trackReset = .next t ∧
      exec (.decStopOk true) t = .next u ∧ decode .fowW u.fowWOf = .ok .wPush :=
  ⟨_, _, by decide, by decide, by decide, mayRun_boundary.1, by decide, by decide, by decide, rfl, rfl, by decide⟩

/-- Both clocks rise: the read domain is released while the write domain is reset once more. -/
theorem witness_AsyncStepRunsTheDecodedOperations_readReleased :
    let s := resetting (.held 3) (.held 3) .both true false
    ∃ t, s.cfg.async = true ∧ s.nextInput.edge = .both ∧ s.nextInput.rst = true ∧ s.nextInput.rstR = false ∧
      s.rReset = .held 3 ∧ s.cfg.syncStages + 1 ≤ 3 ∧ InReset s.wReset ∧
      decode .dew s.sample.dewOf = .ok (.decStopOk true) ∧
      exec (.reset true true true) s.sample.trackReset = .next t ∧ decode .fowR t.fowROf = .ok .rMiss :=
  ⟨_, by decide, by decide, by decide, by decide, by decide, by decide, by decide, by decide, rfl, by decide⟩

/-- Both clocks rise: the write domain is released while the read domain is reset once more. -/
theorem witness_AsyncStepRunsTheDecodedOperations_writeReleased :
    let s := resetting (.held 3) (.held 3) .both false true
    ∃ t u, s.cfg.async = true ∧ s.nextInput.edge = .both ∧ s.nextInput.rst = false ∧ s.nextInput.rstR = true ∧
      s.wReset = .held 3 ∧ s.cfg.syncStages + 1 ≤ 3 ∧ InReset s.rReset ∧
      decode .dew s.sample.dewOf = .ok (.decStopOk true) ∧ exec (.reset true true true) s.sample.trackReset = .next t ∧
      exec (.decStopOk true) t = .next u ∧ decode .fowW u.fowWOf = .ok .wPush :=
  ⟨_, _, by decide, by decide, by decide, by decide, by decide, by decide, by decide, by decide, rfl, rfl, by decide⟩

theorem witness_PresentedDecoderWordIsFormedNext :
    formatOf (.decData3 true true) = .dew ∧ formatOf (.decRecoverC 0 false false) = .dew := by decide

theorem witness_StepKeepsTheDecoderInvariants :
    (readyWith false true true true).DecoderInv ∧ ∃ t, step (readyWith false true true true) = .next t :=
  ⟨by decide, next_of_after (f := fun _ => true) (by decide)⟩

theorem witness_StepKeepsTheStorageForm :
    (readyWith false true true true).StorageInv ∧ ∃ t, step (readyWith false true true true) = .next t :=
  ⟨by decide, next_of_after (f := fun _ => true) (by decide)⟩

theorem witness_StepKeepsTheFifoInvariants :
    (readyWith false true true true).cfg.async = false ∧ (readyWith false true true true).SyncInv ∧
    ∃ t, step (readyWith false true true true) = .next t :=
  ⟨by decide, by decide, next_of_after (f := fun _ => true) (by decide)⟩

theorem crossing_inv (e : ClockEdge) : (crossingAt e).AsyncInv := by
  refine ⟨fun h => absurd rfl h.1, fun h => absurd rfl h.1, fun h => ?_, fun h => ?_,
    fun _ _ => ⟨crossing_pointers, crossing_lags⟩⟩ <;> cases h

/-- With every register at its reset value the invariant holds wherever the domains stand in a joint reset, if a domain that waits
waits for the other: each domain in reset, one released before the other, one that has not joined yet. -/
theorem resetting_inv (w r : DomainReset) (e : ClockEdge) (rst rstR : Bool) (hw : w = .pending → InReset r)
    (hr : r = .pending → InReset w) : (resetting w r e rst rstR).AsyncInv :=
  ⟨fun _ => ⟨rfl, (by decide : gray 0 = 0), rfl⟩, fun _ => ⟨rfl, (by decide : gray 0 = 0), rfl⟩, hw, hr, fun _ _ => by
    constructor
    · exact (by decide : (resetting .running .running .clk false false).PointerInv)
    · exact (by decide : (resetting .running .running .clk false false).LagInv)⟩

theorem witness_StepKeepsTheCrossingInvariants :
    LegalConfig (crossingAt .both).cfg ∧ (crossingAt .both).cfg.async = true ∧ (crossingAt .both).AsyncInv ∧
    ∃ t, step (crossingAt .both) = .next t :=
  ⟨by decide, by decide, crossing_inv _, next_of_after (f := fun _ => true) (by decide)⟩

theorem witness_StepKeepsTheCrossingInvariants_reset :
    LegalConfig (crossingReset .clk).cfg ∧ (crossingReset .clk).cfg.async = true ∧ (crossingReset .clk).AsyncInv ∧
    ∃ t, step (crossingReset .clk) = .next t :=
  ⟨by decide, by decide, crossing_inv .clk, next_of_after (f := fun _ => true) (by decide)⟩

theorem witness_StepKeepsTheCrossingInvariants_released :
    LegalConfig (resetting (.held 3) (.held 3) .both false true).cfg ∧
    (resetting (.held 3) (.held 3) .both false true).AsyncInv ∧
    ∃ t, step (resetting (.held 3) (.held 3) .both false true) = .next t :=
  ⟨by decide, resetting_inv _ _ _ _ _ (by decide) (by decide), next_of_after (f := fun _ => true) (by decide)⟩

theorem witness_ResetMeetsTheInvariants : LegalConfig State.reset.cfg ∧ LegalConfig ⟨2, true, 2⟩ := by decide

theorem witness_StepKeepsTheBuildParameters : ∃ t, step (crossingAt .clkR) = .next t :=
  next_of_after (f := fun _ => true) (by decide)

theorem witness_LegalSyncStateNeverStops : fullWith.cfg.async = false ∧ fullWith.SyncInv := by decide

/-- A joint reset edge; both domains run; one is released at an edge at which the other is still reset. -/
theorem witness_LegalAsyncStateStopsOnlyOnABrokenReset :
    (LegalConfig (crossingReset .both).cfg ∧ (crossingReset .both).nextInput.rst = true ∧
      (crossingReset .both).nextInput.rstR = true) ∧
    ((crossingAt .both).nextInput.edge = .both ∧ (crossingAt .both).nextInput.rst = false ∧
      MayRun 2 (crossingAt .both).wReset (crossingAt .both).rReset false) ∧
    ((resetting (.held 3) (.held 1) .both false true).nextInput.rstR = true ∧
      MayRun 2 (resetting (.held 3) (.held 1) .both false true).wReset
        (resetting (.held 3) (.held 1) .both false true).rReset true) :=
  ⟨by decide, ⟨by decide, by decide, mayRun_boundary.1⟩, by decide, mayRun_boundary.2.1⟩

/-- The refusals: this domain or the other waits, or the other begins a reset at the same edge; one edge too few in reset. The
counting: a step that goes on. -/
theorem witness_BrokenJointResetIsRefused :
    ((resetting .pending (.held 1) .clk false false).nextInput.rst = false ∧
      (resetting .pending (.held 1) .clk false false).wReset = .pending) ∧
    ((resetting (.held 3) .pending .clk false false).nextInput.rst = false ∧
      (resetting (.held 3) .pending .clk false false).rReset = .pending) ∧
    ((resetting .running .running .both false true).rReset = .running ∧
      (resetting .running .running .both false true).nextInput.rstR = true) ∧
    ((resetting (.held 2) (.held 3) .clk false false).wReset = .held 2 ∧
      2 < (resetting (.held 2) (.held 3) .clk false false).cfg.syncStages + 1 ∧
      (resetting (.held 2) (.held 3) .clk false false).rReset ≠ .pending) ∧
    ((resetting (.held 3) (.held 2) .clkR false false).rReset = .held 2 ∧
      (resetting (.held 3) (.held 2) .clkR false false).wReset ≠ .pending) ∧
    ((crossingReset .clk).cfg.async = true ∧ after (step (crossingReset .clk)) (fun _ => true) = true) := by decide

/-- The same refusals for the read domain; the counting: a reset that begins on `clk_r`, and two domains that run. -/
theorem witness_BrokenJointResetIsRefused_read :
    ((resetting (.held 1) .pending .clkR false false).nextInput.rstR = false ∧
      (resetting (.held 1) .pending .clkR false false).rReset = .pending) ∧
    ((resetting .pending (.held 3) .clkR false false).nextInput.rstR = false ∧
      (resetting .pending (.held 3) .clkR false false).wReset = .pending) ∧
    ((resetting .running .running .both true false).wReset = .running ∧
      (resetting .running .running .both true false).nextInput.rst = true) ∧
    after (step (crossingReset .clkR)) (fun t => t.wReset == .pending && t.rReset == .held 1) = true ∧
    after (step (resetting (.held 3) (.held 3) .both false false)) (fun t => t.wReset == .running) = true := by decide

/-- Both pointers of ASYNC = 0 at DEPTH; those of ASYNC = 1 with a DEPTH that is no power of two. -/
theorem witness_AccessBeyondTheStorageFaults :
    (sync 4 0 0 0 0 4 1 0 []).cfg.depth ≤ (sync 4 0 0 0 0 4 1 0 []).tail ∧
    (sync 4 0 0 0 0 4 1 0 []).head < (sync 4 0 0 0 0 4 1 0 []).cfg.depth ∧
    (sync 4 0 0 0 4 0 1 0 []).cfg.depth ≤ (sync 4 0 0 0 4 0 1 0 []).head ∧
    { crossing with cfg := ⟨3, true, 2⟩ }.cfg.depth ≤ 3 % 2 ^ addrW 3 ∧
    { crossing with cfg := ⟨3, true, 2⟩ }.wbin = 3 ∧ { crossing with cfg := ⟨3, true, 2⟩, rbin := 3 }.rbin = 3 := by decide

theorem witness_EventHandshakeDetectsARisingEvent :
    ((readyWith false true true true).cfg.async = false ∧ ∃ t, step (readyWith false true true true) = .next t) ∧
    (risesClk (crossingAt .both).nextInput.edge = true ∧ ∃ t, step (crossingAt .both) = .next t) :=
  ⟨⟨by decide, next_of_after (f := fun _ => true) (by decide)⟩,
    by decide, next_of_after (f := fun _ => true) (by decide)⟩

theorem witness_OutputsFollowTheRegisters :
    (readyWith false true true true).cfg.async = false ∧ (readyWith false true true true).count ≠ 0 ∧
    ∃ t, step (readyWith false true true true) = .next t :=
  ⟨by decide, by decide, next_of_after (f := fun _ => true) (by decide)⟩

theorem witness_AsyncOutputsAreEachSidesView :
    LegalConfig (crossingAt .clkR).cfg ∧ (crossingAt .clkR).cfg.async = true ∧ ∃ t, step (crossingAt .clkR) = .next t :=
  ⟨by decide, by decide, next_of_after (f := fun _ => true) (by decide)⟩

/-- A reset, a cycle that only holds, and a cycle in which everything acts. -/
theorem witness_EachRegisterHasOneWriter :
    ((readyWith true true true true).nextInput.rst = true ∧
      after (step (readyWith true true true true)) (fun _ => true) = true) ∧
    after (step (readyWith false false true false))
      (fun t => newest t (fun r => r.dec == .none && r.prod == .none && r.cons == .none)) = true := by decide

/-- An edge of `clk_r` alone and one of `clk` alone. -/
theorem witness_ClockDomainsAreSeparate :
    ((crossingAt .clkR).cfg.async = true ∧ risesClk (crossingAt .clkR).nextInput.edge = false ∧
      ∃ t, step (crossingAt .clkR) = .next t) ∧
    (risesClkR (crossingAt .clk).nextInput.edge = false ∧ ∃ t, step (crossingAt .clk) = .next t) :=
  ⟨⟨by decide, by decide, next_of_after (f := fun _ => true) (by decide)⟩,
    by decide, next_of_after (f := fun _ => true) (by decide)⟩

/-- A cycle that drops, one that does not, an edge of `clk_r` alone with `rst` = 1. -/
theorem witness_DropCounterCountsDrops :
    (fullWith.nextInput.rst = false ∧ after (step fullWith) (fun t => newest t (fun r => r.prod == .drop 0x33)) = true) ∧
    after (step (readyWith false true true true))
      (fun t => newest t (fun r => r.prod == .accept 0x75 && r.dec == .frameOk 0x75)) = true ∧
    ((crossingReset .clkR).cfg.async = true ∧ risesClk (crossingReset .clkR).nextInput.edge = false ∧
      (crossingReset .clkR).nextInput.rst = true ∧ after (step (crossingReset .clkR)) (fun _ => true) = true) := by decide

theorem witness_StepIsTheCycleFunction :
    (readyWith false true true true).cfg.async = false ∧ (readyWith false true true true).SyncInv ∧
    (readyWith true true true true).SyncInv := ⟨by decide, by decide, by decide⟩

/-- A cycle with a hit and an accepted byte, one with a drop, one with a reset. -/
theorem witness_SyncFifoIsABoundedQueue :
    (readyWith false true true true).SyncInv ∧
    after (step (readyWith false true true true))
      (fun t => newest t (fun r => r.prod == .accept 0x75 && r.cons == .hit 0x11)) = true ∧
    fullWith.SyncInv ∧ after (step fullWith) (fun t => newest t (fun r => r.prod == .drop 0x33)) = true ∧
    (readyWith true true true true).nextInput.rst = true :=
  ⟨by decide, by decide, by decide, by decide, by decide⟩

theorem witness_AsyncFifoIsABoundedQueue :
    LegalConfig (crossingAt .both).cfg ∧ (crossingAt .both).cfg.async = true ∧ (crossingAt .both).AsyncInv ∧
    risesClk (crossingAt .both).nextInput.edge = true ∧ (crossingAt .both).nextInput.rst = false ∧
    after (step (crossingAt .both)) (fun t => newest t (fun r => r.prod == .accept 0x75 && r.cons == .hit 0x22)) = true :=
  ⟨by decide, by decide, crossing_inv _, by decide, by decide, by decide⟩

/-- The read domain runs while the write domain is reset. -/
theorem witness_AsyncFifoIsABoundedQueue_read :
    (resetting (.held 3) (.held 3) .both true false).AsyncInv ∧
    risesClkR (resetting (.held 3) (.held 3) .both true false).nextInput.edge = true ∧
    (resetting (.held 3) (.held 3) .both true false).nextInput.rstR = false ∧
    ∃ t, step (resetting (.held 3) (.held 3) .both true false) = .next t :=
  ⟨resetting_inv _ _ _ _ _ (by decide) (by decide), by decide, by decide, next_of_after (f := fun _ => true) (by decide)⟩

theorem witness_EachSidesViewIsConservative :
    LegalConfig (crossingAt .clk).cfg ∧ (crossingAt .clk).cfg.async = true ∧ (crossingAt .clk).AsyncInv ∧
    (crossingAt .clk).wReset ≠ .pending ∧ (crossingAt .clk).rReset ≠ .pending :=
  ⟨by decide, by decide, crossing_inv _, by decide, by decide⟩

/-- The ends of the pointers' range, the wrap among them. -/
theorem witness_GrayCodeChangesOneBit : 0 < ptrMod 4 ∧ 7 < ptrMod 4 ∧ 0 < addrW 4 := by decide

theorem witness_FrameIsAcceptedExactlyIfValid :
    State.reset.p = 0 ∧ State.reset.acc = 0 ∧ State.reset.ones = 0 := by decide

/-- Two states that agree in the decoder and differ in the FIFO, the storage and the consumer's input. -/
theorem witness_DecoderIgnoresFifoAndConsumer :
    (readyWith false true true true).cfg.async = false ∧ { fullWith with p := 10, acc := 0x75, ones := 5 }.cfg.async = false ∧
    KeepsDecoder (readyWith false true true true) { fullWith with p := 10, acc := 0x75, ones := 5 } ∧
    (∃ t, step (readyWith false true true true) = .next t) ∧
    ∃ t, step { fullWith with p := 10, acc := 0x75, ones := 5 } = .next t :=
  ⟨by decide, by decide, by decide, next_of_after (f := fun _ => true) (by decide),
    next_of_after (f := fun _ => true) (by decide)⟩

theorem witness_ProducerIgnoresTheConsumer :
    ready.cfg.async = false ∧
    (∃ t, step { ready with inputs := [.cycle ⟨.clk, false, false, true, true, false⟩] } = .next t) ∧
    ∃ t, step { ready with inputs := [.cycle ⟨.clk, false, false, true, true, true⟩] } = .next t :=
  ⟨by decide, next_of_after (f := fun _ => true) (by decide), next_of_after (f := fun _ => true) (by decide)⟩

theorem witness_OnlyTheParityOfOnesMatters : (0b1011#4).getLsbD 0 = ready.ones.getLsbD 0 ∧ 0b1011#4 ≠ ready.ones := by
  decide

/-- An empty FIFO and one that holds a byte. -/
theorem witness_BlockingDeqWaitsForAByte :
    ((sync 4 0 0 0 1 1 0 0 []).SyncInv ∧ { sync 4 0 0 0 1 1 0 0 [] with inputs := [.blockingDeq] }.count = 0) ∧
    { ready with inputs := [.blockingDeq] }.SyncInv ∧ { ready with inputs := [.blockingDeq] }.count ≠ 0 :=
  ⟨by decide, by decide, by decide⟩

theorem witness_PartialFrameNeverTimesOut :
    let cycles : List PortIn := [⟨.clk, false, false, false, true, false⟩, ⟨.clk, false, false, false, false, true⟩]
    cycles.length = 2 ∧ (∀ i ∈ cycles, i.rst = false ∧ i.evt = false) ∧
    after (Host.Core.run Sys2Proof.core 2
      ({ sync 4 5 0x0C 2 0 0 0 0 [] with inputs := cycles.map .cycle ++ [] } : State)) (fun _ => true) = true := by decide

/-- SYNC_STAGES edges of `clk_r`, after which `wseen` is `wbin`. -/
theorem witness_SettledWritePointerIsSeen :
    let edges : List PortIn := List.replicate 2 ⟨.clkR, false, false, false, false, true⟩
    LegalConfig crossing.cfg ∧ crossing.cfg.async = true ∧ crossing.PointerInv ∧
    MayRun 2 crossing.rReset crossing.wReset false ∧ edges.length = crossing.cfg.syncStages ∧
    (∀ i ∈ edges, i.rstR = false ∧ i.edge = .clkR) ∧
    after (Host.Core.run Sys2Proof.core 2 ({ crossing with inputs := edges.map .cycle } : State))
      (fun t => t.wseen == 3) = true :=
  ⟨by decide, by decide, crossing_pointers, mayRun_boundary.1, by decide, by decide, by decide⟩

end Sys2Proof.Tests
end

/-! ## Proofs: the state of ASYNC = 0 (10_state.md R32, R37, R38, R39)

A step of ASYNC = 0 is the decoder's part on the sampled state, then the FIFO's on what that gives (`syncStep_cases`). The two
effects are composed here once, into one effect between the state before the step, the state after it and the cycle's record
(`syncStep_record`), and each statement about a step is read off from it. -/

namespace Sys2Proof.Machine

/-! ### The signals of the cycle function (R38), on the state before the step -/

/-- What the decoder makes of its registers and requests in the next cycle: `DEC` if `step = evt && !ack`, else nothing. -/
def State.nextDecoder (s : State) : Nibble × Byte × Nibble × Option Byte :=
  if s.nextInput.evt && !s.ack then decoderFunction s.p s.acc s.ones s.nextInput.dat else (s.p, s.acc, s.ones, none)

/-- The byte pushed in the next cycle, if one is. -/
def State.nextPush (s : State) : Option Byte := s.nextDecoder.2.2.2

/-- `hit = deq && count != 0` of the next cycle. -/
def State.nextHit (s : State) : Bool := s.nextInput.deq && s.count != 0

/-- `acc_ok = enq && count != DEPTH` of the next cycle. -/
def State.nextAccOk (s : State) : Bool := s.nextPush.isSome && s.count != s.cfg.depth

/-- `drop = enq && count == DEPTH` of the next cycle. -/
def State.nextDrop (s : State) : Bool := s.nextPush.isSome && s.count == s.cfg.depth

/-- The decoder's part of a cycle, on the sampled state, written on the state before the step. -/
theorem decoderOf_sample (s : State) : decoderOf s.sample = s.nextDecoder := rfl

theorem nextDecoder_of_no_step {s : State} (h : (s.nextInput.evt && !s.ack) = false) :
    s.nextDecoder = (s.p, s.acc, s.ones, none) := by
  rw [State.nextDecoder, h]
  rfl

/-- `sat_inc_8` under a condition, as R38 writes it. -/
theorem ite_satInc8 (drop : Bool) (c : Byte) :
    (if drop then satInc8 c else c) = if drop && c != 255 then c + 1 else c := by
  cases drop
  · rfl
  · by_cases h : c = 255#8 <;> simp [satInc8, h]

/-! ### What the decoder's part leaves to the FIFO's -/

/-- The FIFO's operation finds the FIFO, the inputs and the machine's other fields as the cycle began with them. -/
theorem DecoderEffect.keeps {s u : State} {d : Nibble × Byte × Nibble × Option Byte} (h : DecoderEffect s u d) :
    KeepsSyncFifo s u ∧ KeepsStorage s u ∧ u.dropCnt = s.dropCnt ∧ KeepsRest s u := by
  obtain ⟨⟨-, -, -, -, -, -, hsync, -, -, hst, hdrop, -, -, hrest⟩, -⟩ := h
  exact ⟨hsync, hst, hdrop, hrest⟩

/-- The decoder's registers, its request and the handshake after its part of the cycle. -/
theorem DecoderEffect.writes {s u : State} {d : Nibble × Byte × Nibble × Option Byte} (h : DecoderEffect s u d) :
    u.p = d.1 ∧ u.acc = d.2.1 ∧ u.ones = d.2.2.1 ∧ u.ack = s.sig.inp.evt ∧ u.sig.push = d.2.2.2.isSome ∧
      (d.2.2.2.isSome = true → u.sig.pushv = d.2.2.2.getD 0) := by
  obtain ⟨⟨hp, hacc, hones, hack, hpush, -⟩, -, hpushv, -⟩ := h
  refine ⟨hp, hacc, hones, hack, hpush, fun hd => ?_⟩
  obtain ⟨v, hv⟩ := Option.isSome_iff_exists.1 hd
  simp [hpushv v hv, hv]

/-! ### What each part leaves to the record -/

/-- RESET records nothing itself, and `rd_data` shows what the port showed (R201). -/
theorem ResetEffect.trace_rdData {s u : State} (ha : s.cfg.async = false) (h : ResetEffect s u) :
    u.trace = s.trace ∧ u.sig.rdData = s.rdDataPort := by
  obtain ⟨-, -, ⟨-, -, -, -, -, htrace, -⟩, hsync, -⟩ := h
  obtain ⟨-, -, -, -, -, -, -, -, -, -, -, -, -, -, hdata, -⟩ := hsync ha
  exact ⟨htrace, hdata⟩

/-- A FIFO operation records nothing itself, and `rd_data` shows the byte at `head` if there is one. -/
theorem FifoEffect.trace_rdData {s u : State} {hit accOk drop : Bool} (h : FifoEffect s u hit accOk drop) :
    u.trace = s.trace ∧ (s.count ≠ 0 → u.sig.rdData = s.memRead s.head) := by
  obtain ⟨-, -, -, -, -, hdata, -, -, -, -, -, -, -, -, -, -, -, -, -, htrace, -⟩ := h
  exact ⟨htrace, hdata⟩

/-! ### The effect of a step -/

/-- The outputs a record of ASYNC = 0 takes from the registers at the start of the cycle (R32), in reset or not. -/
structure ShowsRegisters (s : State) (r : CycleRecord) : Prop where
  ack : r.ack = s.ack
  empty : r.empty = (s.count == 0)
  full : r.full = (s.count == s.cfg.depth)
  count : r.count = s.count
  dropCnt : r.dropCnt = s.dropCnt
  rdData : s.count ≠ 0 → r.rdData = s.memRead s.head

/-- A reset cycle of ASYNC = 0 (R37, R201) from `s` to `t`, recorded as `r`. -/
structure SyncResetCycle (s t : State) (r : CycleRecord) : Prop where
  decoder : t.p = 0 ∧ t.acc = 0 ∧ t.ones = 0 ∧ t.ack = false
  fifo : t.head = 0 ∧ t.tail = 0 ∧ t.count = 0
  dropCnt : t.dropCnt = 0
  storage : KeepsStorage s t
  rdValid : r.rdValid = false
  labels : r.dec = .none ∧ r.prod = .none ∧ r.cons = .none

/-- A cycle of ASYNC = 0 without reset (R38) from `s` to `t`, recorded as `r`. -/
structure SyncRunCycle (s t : State) (r : CycleRecord) : Prop where
  p : t.p = s.nextDecoder.1
  acc : t.acc = s.nextDecoder.2.1
  ones : t.ones = s.nextDecoder.2.2.1
  ack : t.ack = s.nextInput.evt
  storage : ∀ a, t.memRead a = if s.nextAccOk = true ∧ a = s.tail then s.nextPush.getD 0 else s.memRead a
  tail : t.tail = if s.nextAccOk then advance s.cfg.depth s.tail else s.tail
  head : t.head = if s.nextHit then advance s.cfg.depth s.head else s.head
  count : s.count ≤ s.cfg.depth → t.count + s.nextHit.toNat = s.count + s.nextAccOk.toNat
  count_kept : s.nextAccOk = false → s.nextHit = false → t.count = s.count
  dropCnt : t.dropCnt = if s.nextDrop then satInc8 s.dropCnt else s.dropCnt
  rdValid : r.rdValid = s.nextHit
  dec : r.dec ≠ .none ↔ (s.nextInput.evt && !s.ack) = true
  frameOk : ∀ v, r.dec = .frameOk v ↔ s.nextPush = some v
  prod : r.prod =
    if s.nextAccOk then .accept (s.nextPush.getD 0) else if s.nextDrop then .drop (s.nextPush.getD 0) else .none
  cons : r.cons = if s.nextHit then .hit (s.memRead s.head) else if s.nextInput.deq then .miss else .none

/-- RESET's effect on the sampled state, closed, is a reset cycle. -/
theorem syncResetCycle_of_effect {s u : State} (ha : s.cfg.async = false) (h : ResetEffect s.sample u) :
    SyncResetCycle s (u.close s.sample) (cycleRecord s.sample u) := by
  obtain ⟨hmem, -, -, hsync, -⟩ := h
  obtain ⟨hp, hacc, hones, hack, hdrop, hhead, htail, hcount, -, -, -, hdec, hprod, hvalid, -, hcons⟩ := hsync ha
  exact
    { decoder := ⟨hp, hacc, hones, hack⟩
      fifo := ⟨hhead, htail, hcount⟩
      dropCnt := hdrop
      storage := fun a => State.memRead_congr hmem a
      rdValid := hvalid
      labels := ⟨hdec, hprod, hcons⟩ }

/-- The effects of the decoder's part and of the FIFO's, closed, are a cycle without reset. -/
theorem syncRunCycle_of_effects {s u v : State} (hd : DecoderEffect s.sample u s.nextDecoder)
    (hn : u.sig.dec ≠ .none ↔ (s.nextInput.evt && !s.ack) = true)
    (hf : FifoEffect u v (u.sig.inp.deq && u.count != 0) (u.sig.push && u.count != u.cfg.depth)
      (u.sig.push && u.count == u.cfg.depth)) :
    SyncRunCycle s (v.close s.sample) (cycleRecord s.sample v) := by
  obtain ⟨⟨hhead, htail, hcount⟩, hstore, hdrop, hcfg, -, -, -, -, -, hinp⟩ := hd.keeps
  obtain ⟨hp, hacc, hones, hack, hpush, hpushv⟩ := hd.writes
  obtain ⟨-, -, -, hframe⟩ := hd
  have hhit : (u.sig.inp.deq && u.count != 0) = s.nextHit := by rw [hinp, hcount]; rfl
  have haccOk : (u.sig.push && u.count != u.cfg.depth) = s.nextAccOk := by rw [hpush, hcount, hcfg]; rfl
  have hdropped : (u.sig.push && u.count == u.cfg.depth) = s.nextDrop := by rw [hpush, hcount, hcfg]; rfl
  have hbyte (c : Bool) (h : (s.nextPush.isSome && c) = true) : u.sig.pushv = s.nextPush.getD 0 :=
    hpushv (Bool.and_eq_true_iff.1 h).1
  rw [hhit, haccOk, hdropped] at hf
  obtain ⟨fmem, ftail, fhead, fdrop, fvalid, -, fcons, fprod, fkept, fcount, ⟨gp, gacc, gones, gack⟩, ⟨-, -, gdec⟩, -⟩ := hf
  exact
    { p := gp.trans hp
      acc := gacc.trans hacc
      ones := gones.trans hones
      ack := gack.trans hack
      storage := fun a => by
        cases ho : s.nextAccOk
        · simpa using (State.memRead_congr (by simpa [ho] using fmem) a).trans (hstore a)
        · rw [ho, if_pos rfl, hbyte _ ho, htail] at fmem
          simpa [hstore a] using State.memRead_of_write fmem a
      tail := by simpa [htail, hcfg] using ftail
      head := by simpa [hhead, hcfg] using fhead
      count := by simpa [hcount, hcfg] using fcount
      count_kept := by simpa [hcount] using fkept
      dropCnt := by simpa [hdrop] using fdrop
      rdValid := fvalid
      dec := by simpa [cycleRecord, gdec] using hn
      frameOk := by simpa [cycleRecord, gdec, State.nextPush] using hframe
      prod := fprod.trans <| by
        split
        · rw [hbyte _ ‹_›]
        · split
          · rw [hbyte _ ‹_›]
          · rfl
      cons := by simpa [cycleRecord, hstore _, hhead, hinp] using fcons }

/-! ### What the labels of a cycle say -/

/-- A cycle that records no decoder step leaves `p`, `acc` and `ones`. -/
theorem SyncRunCycle.keeps_decoder {s t : State} {r : CycleRecord} (h : SyncRunCycle s t r) (hdec : r.dec = .none) :
    t.p = s.p ∧ t.acc = s.acc ∧ t.ones = s.ones := by
  have hstep : (s.nextInput.evt && !s.ack) = false := by simpa [hdec] using h.dec
  simp [h.p, h.acc, h.ones, nextDecoder_of_no_step hstep]

/-- A cycle that records no accepted byte accepted none. -/
theorem SyncRunCycle.nextAccOk_of_not_accept {s t : State} {r : CycleRecord} (h : SyncRunCycle s t r)
    (hprod : ∀ v, r.prod ≠ .accept v) : s.nextAccOk = false :=
  Bool.eq_false_iff.2 fun ho => hprod _ (h.prod.trans (if_pos ho))

/-- A cycle that records no dropped byte dropped none: an accepted byte is not dropped. -/
theorem SyncRunCycle.nextDrop_of_not_drop {s t : State} {r : CycleRecord} (h : SyncRunCycle s t r)
    (hprod : ∀ v, r.prod ≠ .drop v) : s.nextDrop = false := by
  refine Bool.eq_false_iff.2 fun hd => ?_
  have hfull : s.count = s.cfg.depth := beq_iff_eq.1 (Bool.and_eq_true_iff.1 hd).2
  have ho : s.nextAccOk = false := by simp [State.nextAccOk, hfull]
  exact hprod _ (h.prod.trans (by rw [ho, hd]; rfl))

/-- A cycle that records no hit had none. -/
theorem SyncRunCycle.nextHit_of_not_hit {s t : State} {r : CycleRecord} (h : SyncRunCycle s t r)
    (hcons : ∀ v, r.cons ≠ .hit v) : s.nextHit = false :=
  Bool.eq_false_iff.2 fun hh => hcons _ (h.cons.trans (if_pos hh))

/-! ### The record of a step -/

/-- While the FIFO holds a byte, `rd_data` is the byte at `head` (R32). -/
theorem rdDataPort_sample {s : State} (ha : s.cfg.async = false) (h0 : s.count ≠ 0) :
    s.sample.rdDataPort = s.memRead s.head := by
  simp [State.rdDataPort, State.rdDataSync, State.emptySync, ha, h0]

/-- The record of a cycle shows the registers at its start, if its operations put the byte at `head` on `rd_data`. -/
theorem showsRegisters_cycleRecord {s u : State} (ha : s.cfg.async = false)
    (hdata : s.count ≠ 0 → u.sig.rdData = s.memRead s.head) : ShowsRegisters s (cycleRecord s.sample u) where
  ack := rfl
  empty := by simp [cycleRecord, State.emptyPort, State.emptySync, ha]
  full := by simp [cycleRecord, State.fullPort, State.fullSync, ha]
  count := by simp [cycleRecord, State.countPort, ha]
  dropCnt := rfl
  rdData := hdata

/-- What a step of ASYNC = 0 did, if it answered a next state: it recorded one cycle, whose outputs show the registers before the
step, and the cycle was a reset cycle or the cycle function's. -/
theorem syncStep_record {s t : State} (ha : s.cfg.async = false) (h : step s = .next t) :
    ∃ r, t.trace = r :: s.trace ∧ ShowsRegisters s r ∧
      (s.nextInput.rst = true → SyncResetCycle s t r) ∧ (s.nextInput.rst = false → SyncRunCycle s t r) := by
  rcases syncStep_cases ha h with ⟨hr, u, hu, rfl⟩ | ⟨hr, u, v, hd, hn, hf, rfl⟩
  · obtain ⟨htrace, hdata⟩ := hu.trace_rdData (s := s.sample) ha
    refine ⟨_, by rw [close_trace, htrace]; rfl, ?_, fun _ => syncResetCycle_of_effect ha hu, by simp [hr]⟩
    exact showsRegisters_cycleRecord ha fun h0 => hdata.trans (rdDataPort_sample ha h0)
  · rw [decoderOf_sample] at hd
    obtain ⟨⟨hhead, -, hcount⟩, hstore, -, -, -, -, -, -, utrace, -⟩ := hd.keeps
    obtain ⟨vtrace, hdata⟩ := hf.trace_rdData
    refine ⟨_, by rw [close_trace, vtrace, utrace]; rfl, ?_, by simp [hr], fun _ => syncRunCycle_of_effects hd hn hf⟩
    refine showsRegisters_cycleRecord ha fun h0 => ?_
    calc v.sig.rdData = u.memRead u.head := hdata (by rwa [hcount])
      _ = s.memRead s.head := by rw [hstore, hhead]; rfl

/-! ### A legal state answers every input -/

/-- With at least one entry the FIFO is not full and empty at once (R79, U4). -/
theorem not_full_and_empty {s : State} (h : 0 < s.cfg.depth) : (s.fullSync && s.emptySync) = false := by
  simp only [State.fullSync, State.emptySync, Bool.and_eq_false_iff, beq_eq_false_iff_ne]
  omega

/-- With legal pointers a step of ASYNC = 0 answers a next state, whatever the inputs (R180). -/
theorem syncStep_goes {s : State} (ha : s.cfg.async = false) (hi : s.SyncInv) : Goes (step s) := by
  obtain ⟨hhead, htail, -, -⟩ := hi
  have hcycle : cycle s.sample = cycleSync s.sample := by simp [cycle, ha]
  rw [goes_step, hcycle]
  cases hr : s.nextInput.rst
  · obtain ⟨u, hu, hd, -⟩ := cycleSync_eq (s := s.sample) hr
    obtain ⟨⟨uhead, utail, -⟩, -, -, ucfg, -⟩ := hd.keeps
    obtain ⟨v, hv, -⟩ := fifo_next u (not_full_and_empty (by rw [ucfg]; exact Nat.zero_lt_of_lt hhead))
      (fun _ _ => by rw [utail, ucfg]; exact htail) (fun _ _ => by rw [uhead, ucfg]; exact hhead)
    exact ⟨v, hu.trans hv⟩
  · have hrst : s.sample.sig.inp.rst = true := hr
    have hpiw : s.sample.samplesReset = true := by simpa [State.samplesReset, ha] using hr
    obtain ⟨u, hu, -⟩ := reset_next s.sample s.nextInput.evt s.nextInput.dat s.nextInput.deq
    exact ⟨u, by rw [cycleSync, if_pos hrst, execWord_piw hpiw]; exact hu⟩

/-! ### The statements -/

/-- Settles O49: a legal state's step answers, and its cycle is the cycle function's, register by register. -/
theorem stepIsTheCycleFunction : Obligations.StepIsTheCycleFunction := by
  intro s ha hi
  obtain ⟨t, ht⟩ := syncStep_goes ha hi
  obtain ⟨r, htrace, hshows, hreset, hrun⟩ := syncStep_record ha ht
  refine ⟨t, r, ht, htrace, ?_⟩
  intro i
  split
  case isTrue hr =>
    have h := hreset hr
    obtain ⟨hp, hacc, hones, hack⟩ := h.decoder
    obtain ⟨hhead, htail, hcount⟩ := h.fifo
    exact ⟨hp, hacc, hones, hack, hhead, htail, hcount, h.dropCnt, h.storage, h.rdValid⟩
  case isFalse hr =>
    have h := hrun (Bool.eq_false_iff.2 hr)
    obtain ⟨-, -, hcount, -⟩ := hi
    refine ⟨h.ack, h.p, h.acc, h.ones, h.storage, h.tail, h.head, h.count hcount, ?_, h.rdValid, fun hhit => ?_⟩
    · exact h.dropCnt.trans (ite_satInc8 _ _)
    · exact hshows.rdData (bne_iff_ne.1 (Bool.and_eq_true_iff.1 hhit).2)

/-- Settles O44: the record shows the registers, and `rd_valid` is the hit bit, or 0 in reset. -/
theorem outputsFollowTheRegisters : Obligations.OutputsFollowTheRegisters := by
  intro s t ha ht
  obtain ⟨r, htrace, hshows, hreset, hrun⟩ := syncStep_record ha ht
  refine ⟨r, htrace, hshows.ack, hshows.rdData, ?_, hshows.empty, hshows.full, hshows.count, hshows.dropCnt⟩
  cases hr : s.nextInput.rst
  · exact (hrun hr).rdValid
  · exact (hreset hr).rdValid

/-- Settles O46: a cycle whose record names no decoder step, no accepted byte, no drop or no hit leaves the registers that part
writes. -/
theorem eachRegisterHasOneWriter : Obligations.EachRegisterHasOneWriter := by
  intro s t ha ht
  obtain ⟨r, htrace, -, hreset, hrun⟩ := syncStep_record ha ht
  refine ⟨r, htrace, fun hr => ?_, fun hr => ?_⟩
  · have h := hreset hr
    obtain ⟨hp, hacc, hones, hack⟩ := h.decoder
    obtain ⟨hhead, htail, hcount⟩ := h.fifo
    exact ⟨hp, hacc, hones, hack, hhead, htail, hcount, h.dropCnt, h.storage⟩
  · have h := hrun hr
    refine ⟨h.keeps_decoder, fun hprod => ?_, fun hcons => ?_, fun hprod => ?_, h.ack, fun hprod hcons => ?_⟩
    · have ho := h.nextAccOk_of_not_accept hprod
      exact ⟨by simp [h.tail, ho], fun a => by simp [h.storage, ho]⟩
    · simp [h.head, h.nextHit_of_not_hit hcons]
    · simp [h.dropCnt, h.nextDrop_of_not_drop hprod]
    · exact h.count_kept (h.nextAccOk_of_not_accept hprod) (h.nextHit_of_not_hit hcons)

/-- Settles O1: RESET answers in every state, with the effect `ResetEffect` states for ASYNC = 0. -/
theorem resetRestoresEveryRegister : Obligations.ResetRestoresEveryRegister := by
  intro s evt dat deq ha
  obtain ⟨t, ht, hmem, -, hrest, hsync, -⟩ := reset_next s evt dat deq
  obtain ⟨hp, hacc, hones, hack, hdrop, hhead, htail, hcount, hw, hr, hpush, hdec, hprod, hvalid, -, hcons⟩ := hsync ha
  exact ⟨t, ht, hp, hacc, hones, hack, hhead, htail, hcount, hdrop, State.memRead_congr hmem, hw, hr, hrest, hpush, hvalid,
    hdec, hprod, hcons⟩

end Sys2Proof.Machine

/-! ## Proofs: the parity rule (30_encoding.md R71, 40_decoder.md R112 to R115) -/

namespace Sys2Proof.Machine

/-- `ones[0]` differs from a bit exactly if count and bit make an odd number together: the two wordings of R71. -/
theorem lsb_ne_iff_odd (ones : Nibble) (b : Bool) : ones.getLsbD 0 ≠ b ↔ (ones.toNat + b.toNat) % 2 = 1 := by
  rw [BitVec.getLsbD, Nat.testBit_zero]
  cases b
  · simp
  · simp only [ne_eq, decide_eq_true_eq, Bool.toNat_true]
    omega

/-- The parity slot's row of the decoder's function. -/
theorem decoderFunction_parity (acc : Byte) (ones : Nibble) (b : Bool) :
    decoderFunction 9 acc ones b = if ones.getLsbD 0 = b then (0, 0, 0, none) else (10, acc, ones, none) := rfl

/-- A step at the parity slot either finds the parity violated and clears the decoder, or goes on to the stop slot with the
decoder's other registers as they were. -/
theorem decoderStep_parity {s : State} (hp : s.p = 9) (b : Bool) :
    ∃ t, decoderStep s b = .next t ∧
      ((s.ones.getLsbD 0 = b ∧ t.p = 0 ∧ t.acc = 0 ∧ t.ones = 0) ∨
        (s.ones.getLsbD 0 ≠ b ∧ t.p = 10 ∧ t.acc = s.acc ∧ t.ones = s.ones)) := by
  obtain ⟨t, ht, hd, -⟩ := decoderStep_spec s b
  obtain ⟨tp, tacc, tones, -⟩ := hd.writes
  rw [hp, decoderFunction_parity] at tp tacc tones
  refine ⟨t, ht, ?_⟩
  by_cases h : s.ones.getLsbD 0 = b
  · rw [if_pos h] at tp tacc tones
    exact .inl ⟨h, tp, tacc, tones⟩
  · rw [if_neg h] at tp tacc tones
    exact .inr ⟨h, tp, tacc, tones⟩

/-- `par(v)` as R71 writes it. -/
theorem par_toNat (v : Byte) : (par v).toNat = 1 - popcount v % 2 := by
  rcases Nat.mod_two_eq_zero_or_one (popcount v) with h | h <;> simp [par, h]

/-- A payload and the parity bit sent with it hold an odd number of ones. -/
theorem popcount_add_par_odd (v : Byte) : (popcount v + (par v).toNat) % 2 = 1 := by
  rw [par_toNat]
  omega

/-- Settles O8: the step passes if `ones[0]` differs from the bit, which is odd parity since `ones` counts the payload. -/
theorem paritySlotDemandsOddParity : Obligations.ParitySlotDemandsOddParity := by
  refine ⟨fun s b hp hones => ?_, fun v => ⟨par_toNat v, popcount_add_par_odd v⟩⟩
  obtain ⟨t, ht, hstep⟩ := decoderStep_parity hp b
  have hpass : t.p = 10 ↔ s.ones.getLsbD 0 ≠ b := by
    rcases hstep with ⟨hb, htp, -⟩ | ⟨hb, htp, -⟩
    · exact iff_of_false (by simp [htp]) (not_not.2 hb)
    · exact iff_of_true htp hb
  have hodd : s.ones.getLsbD 0 ≠ b ↔ (popcount s.acc + b.toNat) % 2 = 1 := hones ▸ lsb_ne_iff_odd s.ones b
  refine ⟨t, ht, hpass.trans hodd, hpass, fun hfail => ?_⟩
  rcases hstep with ⟨-, hcleared⟩ | ⟨hb, -⟩
  · exact hcleared
  · exact absurd (hpass.2 hb) hfail

end Sys2Proof.Machine

/-! ## Proofs: the decoder's operations and the cycles around them (40_decoder.md R101 to R119, R123)

Each operation is `setDecoder` (or, for DEC_STOP_OK, `setDecoder` and a request) and the handshake, so what it writes and leaves
is said once for all rows; the words of the rows are numbers of one form. The statements about whole cycles use `syncStep_record`. -/

namespace Sys2Proof.Machine

/-! ### The words of the DEW table as numbers (R74) -/

/-- The DEW `{p, ones[0], dat}` is the number `4 p + 2 ones[0] + dat`. -/
theorem dewWord_eq_ofNat (p : Nibble) (ones0 dat : Bool) :
    dewWord p ones0 dat = BitVec.ofNat 8 (4 * p.toNat + 2 * ones0.toNat + dat.toNat) := by
  revert p ones0 dat
  decide

/-- A number of that form is read as the DEW's row says. -/
theorem decode_dew_ofNat {w : Nat} {p : Nibble} {ones0 dat : Bool} {i : Instr}
    (hrow : Sys2Proof.decode .dew (dewWord p ones0 dat) = .ok i)
    (hw : w = 4 * p.toNat + 2 * ones0.toNat + dat.toNat) :
    Sys2Proof.decode .dew (BitVec.ofNat 8 w) = .ok i := by
  rw [hw, ← dewWord_eq_ofNat, hrow]

/-! ### What a decoder operation writes, and what it leaves (R100, R184) -/

/-- An operation that pushes nothing. -/
theorem decoderWrites_setDecoder (s : State) (p : Nibble) (acc : Byte) (ones : Nibble) (o : DecOutcome) :
    DecoderWrites s (s.setDecoder p acc ones o).handshake p acc ones false o :=
  ⟨rfl, rfl, rfl, rfl, rfl, rfl, keepsFifo_setDecoder s p acc ones o⟩

/-- An operation that pushes a byte. -/
theorem decoderWrites_request (s : State) (p : Nibble) (acc : Byte) (ones : Nibble) (o : DecOutcome) (v : Byte) :
    DecoderWrites s ((s.setDecoder p acc ones o).request v).handshake p acc ones true o :=
  ⟨rfl, rfl, rfl, rfl, rfl, rfl, keepsFifo_request s p acc ones o v⟩

/-! ### The data slots (R103) -/

/-- The rows of DEC_DATA0 to DEC_DATA7: the word of slot `k + 1` selects the operation that absorbs data bit `k`. -/
theorem dataInstrs_row {k : Nat} {mk : Bool → Bool → Instr} (h : dataInstrs[k]? = some mk) :
    k < 8 ∧ (∀ ones0 dat, Sys2Proof.decode .dew (dewWord (BitVec.ofNat 4 (k + 1)) ones0 dat) = .ok (mk ones0 dat)) ∧
      ∀ ones0 dat s, exec (mk ones0 dat) s = .next (s.absorbData k dat).handshake := by
  match k, h with
  | 0, rfl => exact ⟨by decide, dew_data0, fun _ _ _ => rfl⟩
  | 1, rfl => exact ⟨by decide, dew_data1, fun _ _ _ => rfl⟩
  | 2, rfl => exact ⟨by decide, dew_data2, fun _ _ _ => rfl⟩
  | 3, rfl => exact ⟨by decide, dew_data3, fun _ _ _ => rfl⟩
  | 4, rfl => exact ⟨by decide, dew_data4, fun _ _ _ => rfl⟩
  | 5, rfl => exact ⟨by decide, dew_data5, fun _ _ _ => rfl⟩
  | 6, rfl => exact ⟨by decide, dew_data6, fun _ _ _ => rfl⟩
  | 7, rfl => exact ⟨by decide, dew_data7, fun _ _ _ => rfl⟩

/-- The data slots OR the sampled bit into bit `k` of `acc` and touch no other bit. -/
theorem absorbData_acc_getLsbD (s : State) {k : Nat} (hk : k < 8) (dat : Bool) (j : Nat) :
    (s.absorbData k dat).acc.getLsbD j = (s.acc.getLsbD j || (dat && j == k)) := by
  have hbit : ((BitVec.ofBool dat).setWidth 8 <<< k).getLsbD j = (dat && j == k) := by
    rcases Nat.lt_trichotomy j k with h | rfl | h
    · simp [BitVec.getLsbD_shiftLeft, h, Nat.ne_of_lt h]
    · simp [hk]
    · simp [BitVec.getLsbD_shiftLeft, Nat.ne_of_gt h, BitVec.getLsbD_ofBool, Nat.sub_ne_zero_of_lt h]
  rw [State.absorbData, State.setDecoder_acc, BitVec.getLsbD_or, hbit]

/-- The sampled bit as R103 adds it to `ones`. -/
theorem setWidth_ofBool (dat : Bool) : (BitVec.ofBool dat).setWidth 4 = if dat then 1 else 0 := by
  cases dat <;> rfl

/-- A value with no 1-bit at position `k` or above has at most `k` 1-bits. -/
theorem popcount_le_of_shiftRight {v : Byte} {k : Nat} (h : v >>> k = 0) : popcount v ≤ k := by
  have hsub : (List.range 8).filter (fun i => v.getLsbD i) ⊆ List.range k := by
    intro i hi
    by_contra hik
    have hki : k ≤ i := by simpa using hik
    have hset : (v >>> k).getLsbD (i - k) = true := by
      simpa [BitVec.getLsbD_ushiftRight, Nat.add_sub_of_le hki] using (List.mem_filter.1 hi).2
    simp [h] at hset
  simpa [popcount] using ((List.nodup_range.filter _).subperm hsub).length_le

/-- R30 at slot `k + 1`: data bit `k` has not been seen, and at most `k` ones have been counted. -/
theorem State.DecoderInv.dataSlot {s : State} (hi : s.DecoderInv) {k : Nat} (hk : k < 8) (hp : s.p.toNat = k + 1) :
    s.acc.getLsbD k = false ∧ s.ones.toNat ≤ k := by
  obtain ⟨-, -, hdata, -⟩ := hi
  obtain ⟨hacc, hones⟩ := hdata (by omega) (by omega)
  rw [hp, Nat.add_sub_cancel] at hacc
  refine ⟨?_, hones ▸ popcount_le_of_shiftRight hacc⟩
  simpa [BitVec.getLsbD_ushiftRight] using congrArg (·.getLsbD 0) hacc

/-- Adding a bit to a count of at most 7 does not wrap. -/
theorem toNat_ones_add {ones : Nibble} (h : ones.toNat ≤ 7) (dat : Bool) :
    (ones + if dat then 1 else 0).toNat = ones.toNat + dat.toNat := by
  cases dat
  · simp
  · simp only [if_true, Bool.toNat_true, BitVec.toNat_add]
    exact Nat.mod_eq_of_lt (by simp; omega)

/-! ### A stop bit of 1, through the whole cycle (R116) -/

/-- The cycle function of a step at the stop slot with the bit 1: `acc` is pushed and the decoder is idle again. -/
theorem nextDecoder_stop {s : State} (hp : s.p = 10) (hstep : (s.nextInput.evt && !s.ack) = true)
    (hdat : s.nextInput.dat = true) : s.nextDecoder = (0, 0, 0, some s.acc) := by
  rw [State.nextDecoder, hstep, hp, hdat]
  rfl

/-- What a cycle of ASYNC = 0 does with a byte the decoder pushes, by whether the FIFO is full at its start. -/
theorem SyncRunCycle.push {s t : State} {r : CycleRecord} (h : SyncRunCycle s t r) {v : Byte}
    (hpush : s.nextPush = some v) (hcount : s.count ≤ s.cfg.depth) :
    (s.count ≠ s.cfg.depth → r.prod = .accept v ∧ t.memRead s.tail = v ∧ t.count + s.nextHit.toNat = s.count + 1) ∧
      (s.count = s.cfg.depth → r.prod = .drop v ∧ t.count + s.nextHit.toNat = s.count) := by
  refine ⟨fun hroom => ?_, fun hfull => ?_⟩
  · have haccOk : s.nextAccOk = true := by simp [State.nextAccOk, hpush, hroom]
    exact ⟨by simp [h.prod, haccOk, hpush], by simp [h.storage, haccOk, hpush],
      by simpa [haccOk] using h.count hcount⟩
  · have haccOk : s.nextAccOk = false := by simp [State.nextAccOk, hfull]
    have hdrop : s.nextDrop = true := by simp [State.nextDrop, hpush, hfull]
    exact ⟨by simp [h.prod, haccOk, hdrop, hpush], by simpa [haccOk] using h.count hcount⟩

/-! ### Cycles without an event (R123) -/

/-- A FIFO operation leaves the build, the inputs and the model's own fields. -/
theorem FifoEffect.keepsRest {s t : State} {hit accOk drop : Bool} (h : FifoEffect s t hit accOk drop) : KeepsRest s t := by
  obtain ⟨-, -, -, -, -, -, -, -, -, -, -, -, -, -, hrest⟩ := h
  exact hrest

theorem keepsRest_trans {s t u : State} (hst : KeepsRest s t) (htu : KeepsRest t u) : KeepsRest s u := by
  obtain ⟨cfg, wReset, rReset, inputs, draws, trace, inp⟩ := hst
  obtain ⟨cfg', wReset', rReset', inputs', draws', trace', inp'⟩ := htu
  exact ⟨cfg'.trans cfg, wReset'.trans wReset, rReset'.trans rReset, inputs'.trans inputs, draws'.trans draws,
    trace'.trans trace, inp'.trans inp⟩

/-- A step of ASYNC = 0 is the close of a state in which the build, the stimulus and the model's own fields are those sampled. -/
theorem syncStep_close {s t : State} (ha : s.cfg.async = false) (h : step s = .next t) :
    ∃ u, KeepsRest s.sample u ∧ t = u.close s.sample := by
  rcases syncStep_cases ha h with ⟨-, u, hreset, rfl⟩ | ⟨-, u, v, hdec, -, hfifo, rfl⟩
  · obtain ⟨-, -, hrest, -⟩ := hreset
    exact ⟨u, hrest, rfl⟩
  · obtain ⟨-, -, -, hrest⟩ := hdec.keeps
    exact ⟨v, keepsRest_trans hrest hfifo.keepsRest, rfl⟩

/-- A listed cycle gives the inputs of the next edge. -/
theorem nextInput_of_cycle {s : State} {i : PortIn} {rest : List Pending} (h : s.inputs = .cycle i :: rest) :
    s.nextInput = i := by
  simp [State.nextInput, h]

/-- A step of ASYNC = 0 keeps the build and uses up a listed cycle. -/
theorem syncStep_uses_cycle {s t : State} {i : PortIn} {rest : List Pending} (ha : s.cfg.async = false)
    (hin : s.inputs = .cycle i :: rest) (h : step s = .next t) : t.cfg = s.cfg ∧ t.inputs = rest := by
  obtain ⟨u, ⟨hcfg, -, -, hu, -⟩, rfl⟩ := syncStep_close ha h
  have hcycle : u.inputs = .cycle i :: rest := hu.trans hin
  exact ⟨hcfg, by simp [State.close, State.remaining, hcycle]⟩

/-- A step of ASYNC = 0 without reset and without an event leaves `p`, `acc` and `ones`, and ends the handshake. -/
theorem syncStep_without_event {s t : State} (ha : s.cfg.async = false) (hrst : s.nextInput.rst = false)
    (hevt : s.nextInput.evt = false) (h : step s = .next t) :
    t.p = s.p ∧ t.acc = s.acc ∧ t.ones = s.ones ∧ t.ack = false := by
  obtain ⟨r, -, -, -, hrun⟩ := syncStep_record ha h
  have hc := hrun hrst
  have hdec : s.nextDecoder = (s.p, s.acc, s.ones, none) := nextDecoder_of_no_step (by simp [hevt])
  rw [← hevt]
  exact ⟨by rw [hc.p, hdec], by rw [hc.acc, hdec], by rw [hc.ones, hdec], hc.ack⟩

/-- A run of `k + 1` steps is a step and then a run of `k`. -/
theorem run_succ (k : Nat) (s : State) :
    Host.Core.run Sys2Proof.core (k + 1) s = andThen (step s) (Host.Core.run Sys2Proof.core k) := by
  have hstep : Sys2Proof.core.step s = step s := rfl
  rw [Host.Core.run.eq_2 Sys2Proof.core s k, hstep]
  cases step s <;> rfl

/-- Listed cycles without reset and without an event leave `p`, `acc` and `ones`; `ack` is 0 after the first of them, and stays 0. -/
theorem run_without_events {cycles : List PortIn} {rest : List Pending} {s t : State} (ha : s.cfg.async = false)
    (hquiet : ∀ i ∈ cycles, i.rst = false ∧ i.evt = false) (hin : s.inputs = cycles.map .cycle ++ rest)
    (h : Host.Core.run Sys2Proof.core cycles.length s = .next t) :
    t.p = s.p ∧ t.acc = s.acc ∧ t.ones = s.ones ∧ t.inputs = rest ∧ (cycles ≠ [] ∨ s.ack = false → t.ack = false) := by
  induction cycles generalizing s with
  | nil =>
    cases h
    exact ⟨rfl, rfl, rfl, hin, by simp⟩
  | cons i cycles ih =>
    obtain ⟨u, hu, hrun⟩ := andThen_eq_next.1 ((run_succ _ s).symm.trans h)
    obtain ⟨⟨hrst, hevt⟩, hquiet⟩ := List.forall_mem_cons.1 hquiet
    have hnext : s.nextInput = i := nextInput_of_cycle hin
    obtain ⟨ucfg, uin⟩ := syncStep_uses_cycle ha hin hu
    obtain ⟨up, uacc, uones, uack⟩ := syncStep_without_event ha (hnext ▸ hrst) (hnext ▸ hevt) hu
    obtain ⟨tp, tacc, tones, tin, tack⟩ := ih (ucfg ▸ ha) hquiet uin hrun
    exact ⟨tp.trans up, tacc.trans uacc, tones.trans uones, tin, fun _ => tack (.inr uack)⟩

/-! ### The statements -/

/-- Settles O59, by induction on the cycles listed. -/
theorem partialFrameNeverTimesOut : Obligations.PartialFrameNeverTimesOut := by
  rintro k s t cycles rest ha rfl hquiet hin hrun
  obtain ⟨hp, hacc, hones, hinputs, hack⟩ := run_without_events ha hquiet hin hrun
  exact ⟨hp, hacc, hones, hinputs, fun hk => hack (.inl (List.length_pos_iff.1 hk))⟩

/-- Settles O5: the two rows of the start slot, by the sampled bit. -/
theorem startSlotWaitsForAZero : Obligations.StartSlotWaitsForAZero := by
  intro s ones0
  exact ⟨decode_dew_ofNat (dew_start ones0 true) (by simp), decode_dew_ofNat (dew_start ones0 false) (by simp),
    ⟨_, rfl, decoderWrites_setDecoder ..⟩, ⟨_, rfl, decoderWrites_setDecoder ..⟩⟩

/-- Settles O6: the row of each data slot, the bit it sets, and from R30 that the bit was 0 and the count has room. -/
theorem dataSlotAbsorbsItsBit : Obligations.DataSlotAbsorbsItsBit := by
  intro s k mk ones0 dat hmk
  obtain ⟨hk, hrow, hexec⟩ := dataInstrs_row hmk
  have hslot : (BitVec.ofNat 4 (k + 1)).toNat = k + 1 := by
    rw [BitVec.toNat_ofNat]
    omega
  have hones : (s.absorbData k dat).ones = s.ones + if dat then 1 else 0 := by
    rw [← setWidth_ofBool dat]
    rfl
  refine ⟨decode_dew_ofNat (hrow ones0 dat) (by rw [hslot]), _, hexec ones0 dat s, ?_, ?_, fun hi hp => ?_⟩
  · rw [← hones]
    exact decoderWrites_setDecoder ..
  · exact absorbData_acc_getLsbD s hk dat
  · obtain ⟨hbit, hle⟩ := hi.dataSlot hk hp
    have hsum : (s.absorbData k dat).handshake.ones.toNat = s.ones.toNat + dat.toNat := by
      rw [State.handshake_ones, hones, toNat_ones_add (by omega)]
    have hdat := Bool.toNat_le dat
    exact ⟨hbit, hsum, by omega⟩

/-- Settles O7: the parity slot's four rows, by `ones[0]` and the sampled bit. -/
theorem parityRowsAdvanceOrDiscard : Obligations.ParityRowsAdvanceOrDiscard := by
  refine ⟨decode_dew_ofNat (dew_parity false true) rfl, decode_dew_ofNat (dew_parity true false) rfl,
    decode_dew_ofNat (dew_parity false false) rfl, decode_dew_ofNat (dew_parity true true) rfl, fun s => ?_⟩
  exact ⟨⟨_, rfl, decoderWrites_setDecoder ..⟩, ⟨_, rfl, decoderWrites_setDecoder ..⟩,
    ⟨_, rfl, decoderWrites_setDecoder ..⟩, ⟨_, rfl, decoderWrites_setDecoder ..⟩⟩

/-- Settles O9: the operation by its row, and the cycle by what the FIFO does with a byte the decoder pushes. -/
theorem stopBitOnePushesTheByte : Obligations.StopBitOnePushesTheByte := by
  refine ⟨fun s ones0 => ?_, fun s ha hi hp hack hrst hevt hdat => ?_⟩
  · exact ⟨decode_dew_ofNat (dew_stop ones0 true) (by simp; omega), _, rfl, decoderWrites_request .., rfl⟩
  · obtain ⟨t, ht⟩ := syncStep_goes ha hi
    obtain ⟨r, htrace, -, -, hrun⟩ := syncStep_record ha ht
    have h := hrun hrst
    have hdec := nextDecoder_stop hp (by simp [hevt, hack]) hdat
    have hpush : s.nextPush = some s.acc := by rw [State.nextPush, hdec]
    obtain ⟨hhead, -, hcount, -⟩ := hi
    obtain ⟨hroom, hfull⟩ := h.push hpush hcount
    refine ⟨t, r, ht, htrace, by rw [h.p, hdec], by rw [h.acc, hdec], by rw [h.ones, hdec], h.ack.trans hevt,
      (h.frameOk _).2 hpush, hroom, fun hf => ?_⟩
    have hhit : s.nextHit = s.nextInput.deq := by
      have h0 : s.count ≠ 0 := by omega
      simp [State.nextHit, h0]
    exact hhit ▸ hfull hf

/-- Settles O10: the stop slot's row for the bit 0. -/
theorem stopBitZeroDiscardsTheFrame : Obligations.StopBitZeroDiscardsTheFrame := by
  intro s ones0
  exact ⟨decode_dew_ofNat (dew_stop ones0 false) (by simp), _, rfl, decoderWrites_setDecoder ..⟩

/-- Settles O11: the words with p = 11 and, as `11` before two open bits, those with p = 12..15. -/
theorem unreachableSlotRecoversToIdle : Obligations.UnreachableSlotRecoversToIdle := by
  intro s plow ones0 dat
  have hp : (3#2 ++ plow).toNat = 12 + plow.toNat := by
    revert plow
    decide
  have hlow : (3#2 ++ plow).extractLsb' 0 2 = plow := by
    revert plow
    decide
  have hrow : Sys2Proof.decode .dew (dewWord (3#2 ++ plow) ones0 dat) = .ok (.decRecoverC plow ones0 dat) := by
    simpa only [hlow] using dew_recoverC (3#2 ++ plow) ones0 dat (by omega)
  exact ⟨decode_dew_ofNat (dew_recoverB ones0 dat) rfl, decode_dew_ofNat hrow (by omega),
    ⟨_, rfl, decoderWrites_setDecoder ..⟩, ⟨_, rfl, decoderWrites_setDecoder ..⟩⟩

/-- Settles O12: in a cycle without a step DEC_HOLD is the decoder's part. -/
theorem holdLeavesTheDecoder : Obligations.HoldLeavesTheDecoder := by
  refine ⟨fun s => ⟨_, rfl, decoderWrites_setDecoder ..⟩, fun s hno => ?_⟩
  have hstep : ¬ s.takesStep = true := by simpa [State.takesStep] using hno
  rw [decoderPart_eq, if_neg hstep]

end Sys2Proof.Machine

/-! ## Proofs: the FIFO's operations of ASYNC = 0, one by one (41_fifo.md R132 to R140)

The words of the FOW table are numbers of one form. An operation that reaches the storage is, where its entry exists, an update
without a fault (`exec_fifoPush` and so on), and what it writes is read off from the laws of that update; what remains is
arithmetic of `count` and the pointers. -/

namespace Sys2Proof.Machine

/-! ### The words of the FOW table as numbers (R76, R77) -/

/-- The FOW `{enq, deq, F, E}` is the number `8 enq + 4 deq + 2 F + E`. -/
theorem fourBits_eq_ofNat (enq deq full empty : Bool) :
    fourBits enq deq full empty = BitVec.ofNat 8 (8 * enq.toNat + 4 * deq.toNat + 2 * full.toNat + empty.toNat) := by
  revert enq deq full empty
  decide

/-- A number of that form is read as the FOW's row says. -/
theorem decode_fow_ofNat {w : Nat} {enq deq full empty : Bool} {i : Instr}
    (hrow : Sys2Proof.decode .fow (fourBits enq deq full empty) = .ok i)
    (hw : w = 8 * enq.toNat + 4 * deq.toNat + 2 * full.toNat + empty.toNat) :
    Sys2Proof.decode .fow (BitVec.ofNat 8 w) = .ok i := by
  rw [hw, ← fourBits_eq_ofNat, hrow]

/-- Only a word with F = E = 1 is read as FIFO_IMPOSSIBLE. -/
theorem full_and_empty_of_fifoImpossible {enq deq full empty e d : Bool}
    (h : Sys2Proof.decode .fow (fourBits enq deq full empty) = .ok (.fifoImpossible e d)) : (full && empty) = true := by
  revert enq deq full empty e d
  decide

/-! ### The operations where their entry exists -/

theorem exec_fifoPush {s : State} (empty : Bool) (h : s.tail < s.cfg.depth) :
    exec (.fifoPush empty) s = .next ((s.portIdle s.rdDataSync).acceptSync.updateCount true false) := by
  simp [exec, execFifoPush, guardEntry_of_lt h]

theorem exec_fifoPop {s : State} (full : Bool) (h : s.head < s.cfg.depth) :
    exec (.fifoPop full) s = .next (s.hitSync.noEnqueue.updateCount false true) := by
  simp [exec, execFifoPop, guardEntry_of_lt h]

theorem exec_fifoPushPop {s : State} (hh : s.head < s.cfg.depth) (ht : s.tail < s.cfg.depth) :
    exec .fifoPushPop s = .next s.hitSync.acceptSync := by
  simp [exec, execFifoPushPop, guardEntry_of_lt hh, guardEntry_of_lt ht]

theorem exec_fifoPushPopMiss {s : State} (h : s.tail < s.cfg.depth) :
    exec .fifoPushPopMiss s = .next { s.portMiss.acceptSync with count := 1 } := by
  simp [exec, execFifoPushPopMiss, guardEntry_of_lt h]

theorem exec_fifoDropPop {s : State} (h : s.head < s.cfg.depth) :
    exec .fifoDropPop s = .next (s.hitSync.dropByte.updateCount false true) := by
  simp [exec, execFifoDropPop, guardEntry_of_lt h]

/-! ### What an operation writes to the storage -/

/-- A state whose storage is another's has every entry as before. -/
theorem keepsStorage_of_mem {s t : State} (h : t.mem = s.mem) : KeepsStorage s t := State.memRead_congr h

/-- A state whose storage is another's after a write has that entry written and no other. -/
theorem storesByte_of_write {s t : State} {i : Nat} {v : Byte} (h : t.mem = Memory.write s.mem i v) :
    StoresByte s t i v :=
  ⟨by simp [State.memRead_of_write h], fun a ha => by simp [State.memRead_of_write h, ha]⟩

theorem StoresByte.memRead_of_eq {s t : State} {i j : Nat} {v : Byte} (h : StoresByte s t i v) (hj : j = i) :
    t.memRead j = v := by
  obtain ⟨hread, -⟩ := h
  rw [hj, hread]

/-! ### `sat_inc_8` (R8, R135, R140) -/

/-- `sat_inc_8` as R135 writes it: up by one, but at 255 it stays. -/
theorem satInc8_eq_ite (c : Byte) : satInc8 c = if c = 255 then 255 else c + 1 := by
  by_cases h : c = 255#8 <;> simp [satInc8, h]

/-! ### Legal pointers (R31) -/

/-- An empty FIFO is written where it is read next. -/
theorem State.SyncInv.tail_eq_head {s : State} (hi : s.SyncInv) (h : s.count = 0) : s.tail = s.head := by
  obtain ⟨hhead, -, -, htail⟩ := hi
  rw [htail, h, Nat.add_zero, Nat.mod_eq_of_lt hhead]

/-- The pointers of a FIFO that is neither empty nor full differ. -/
theorem State.SyncInv.head_ne_tail {s : State} (hi : s.SyncInv) (h0 : s.count ≠ 0) (hd : s.count ≠ s.cfg.depth) :
    s.head ≠ s.tail := by
  obtain ⟨hhead, -, hcount, htail⟩ := hi
  rw [htail]
  rcases Nat.lt_or_ge (s.head + s.count) s.cfg.depth with hlt | hge
  · rw [Nat.mod_eq_of_lt hlt]
    omega
  · rw [Nat.mod_eq_sub_mod hge, Nat.mod_eq_of_lt (by omega)]
    omega

/-! ### `count` and the flags after an operation (R142, R76) -/

theorem updateCount_push {s : State} (hd : s.count ≠ s.cfg.depth) (hle : s.count ≤ s.cfg.depth) :
    (s.updateCount true false).count = s.count + 1 := by
  simpa using count_inc hd hle

theorem updateCount_pop {s : State} (h0 : s.count ≠ 0) (hle : s.count ≤ s.cfg.depth) :
    (s.updateCount false true).count + 1 = s.count := by
  simpa using count_dec h0 hle

theorem fullSync_iff {s : State} : s.fullSync = true ↔ s.count = s.cfg.depth := beq_iff_eq

theorem emptySync_iff {s : State} : s.emptySync = true ↔ s.count = 0 := beq_iff_eq

/-- After an accepted enqueue alone the FIFO is not empty. -/
theorem emptySync_of_count_inc {t : State} {n : Nat} (hcount : t.count = n + 1) : t.emptySync = false := by
  simp [State.emptySync, hcount]

/-- After an accepted enqueue alone the FIFO is full exactly if the byte took the last free entry. -/
theorem fullSync_iff_of_count_inc {t : State} {n : Nat} (hcount : t.count = n + 1) :
    t.fullSync = true ↔ n + 1 = t.cfg.depth := by
  rw [fullSync_iff, hcount]

/-- After a hit alone the FIFO is not full. -/
theorem fullSync_of_count_dec {t : State} {n : Nat} (hcount : t.count + 1 = n) (hle : n ≤ t.cfg.depth) :
    t.fullSync = false := by
  rw [← Bool.not_eq_true, fullSync_iff]
  omega

/-- After a hit alone the FIFO is empty exactly if the byte was the last. -/
theorem emptySync_iff_of_count_dec {t : State} {n : Nat} (hcount : t.count + 1 = n) : t.emptySync = true ↔ n = 1 := by
  rw [emptySync_iff]
  omega

/-! ### The statements -/

/-- Settles O13: only a word with F = E = 1 is FIFO_IMPOSSIBLE's, and with an entry the FIFO is not full and empty at once. -/
theorem fullAndEmptyIsRefused : Obligations.FullAndEmptyIsRefused := by
  intro s enq deq
  refine ⟨decode_fow_ofNat (fow_full_empty enq deq) rfl, rfl, fun hdepth hword => ?_⟩
  exact absurd (full_and_empty_of_fifoImpossible hword) (by simp [not_full_and_empty hdepth])

/-- Settles O14: both operations write the read port and the outcome labels alone. -/
theorem idleAndMissLeaveTheFifo : Obligations.IdleAndMissLeaveTheFifo := by
  refine ⟨decode_fow_ofNat (fow_pop false true rfl) rfl, fun s full empty => ⟨fun hflags => ?_, ?_, ?_⟩⟩
  · exact decode_fow_ofNat (fow_idle full empty hflags) (by simp)
  · refine ⟨_, rfl, ⟨rfl, rfl, rfl⟩, keepsStorage_of_mem rfl, rfl, rfl, fun h0 => ?_, rfl, rfl, by simp [keepsBesides]⟩
    simp [State.rdDataSync, State.emptySync, h0]
  · exact ⟨_, rfl, ⟨rfl, rfl, rfl⟩, keepsStorage_of_mem rfl, rfl, rfl, rfl, rfl, by simp [keepsBesides]⟩

/-- Settles O15: the byte goes to entry `tail`, which is `head` if the FIFO was empty. -/
theorem pushStoresTheByteAtTail : Obligations.PushStoresTheByteAtTail := by
  intro s empty hi hroom
  have hhead := hi.tail_eq_head
  obtain ⟨-, htail, hle, -⟩ := hi
  have hstores := storesByte_of_write (s := s) (t := (s.portIdle s.rdDataSync).acceptSync.updateCount true false) rfl
  have hcount := updateCount_push (s := (s.portIdle s.rdDataSync).acceptSync) hroom hle
  exact ⟨decode_fow_ofNat (fow_push false empty rfl) (by simp), _, exec_fifoPush empty htail, hstores, rfl, rfl, hcount,
    emptySync_of_count_inc hcount, fullSync_iff_of_count_inc hcount, fun h0 => hstores.memRead_of_eq (hhead h0).symm,
    rfl, rfl, rfl, rfl, by simp [keepsBesides]⟩

/-- Settles O16: the operation writes the drop counter, the read port and the outcome labels alone. -/
theorem pushIntoAFullFifoIsDropped : Obligations.PushIntoAFullFifoIsDropped := by
  refine ⟨decode_fow_ofNat (fow_push true false rfl) rfl, fun s empty => ⟨_, rfl, ?_⟩⟩
  exact ⟨satInc8_eq_ite _, ⟨rfl, rfl, rfl⟩, keepsStorage_of_mem rfl, rfl, rfl, rfl, by simp [keepsBesides]⟩

/-- Settles O17: the byte at `head` leaves, and `head` and `count` move. -/
theorem popDeliversTheHeadByte : Obligations.PopDeliversTheHeadByte := by
  intro s full hi h0
  obtain ⟨hhead, -, hle, -⟩ := hi
  have hcount := updateCount_pop (s := s.hitSync.noEnqueue) h0 hle
  exact ⟨decode_fow_ofNat (fow_pop full false (Bool.and_false full)) (by simp), _, exec_fifoPop full hhead, rfl, rfl, rfl,
    rfl, hcount, fullSync_of_count_dec hcount hle, emptySync_iff_of_count_dec hcount, keepsStorage_of_mem rfl, rfl, rfl,
    rfl, by simp [keepsBesides]⟩

/-- Settles O18: neither empty nor full, so the entry read is not the entry written. -/
theorem pushPopMovesBothPointers : Obligations.PushPopMovesBothPointers := by
  refine ⟨decode_fow_ofNat (fow_push_pop false false rfl) rfl, fun s hi h0 hroom => ?_⟩
  have hdiffer := hi.head_ne_tail h0 hroom
  obtain ⟨hhead, htail, -, -⟩ := hi
  exact ⟨hdiffer, _, exec_fifoPushPop hhead htail, rfl, rfl, storesByte_of_write rfl, rfl, rfl, rfl, rfl, rfl, rfl,
    by simp [keepsBesides]⟩

/-- Settles O19: the byte goes to entry `tail`, which on an empty FIFO is `head`, and the dequeue misses. -/
theorem pushWithMissDoesNotBypass : Obligations.PushWithMissDoesNotBypass := by
  refine ⟨decode_fow_ofNat (fow_push_pop false true rfl) rfl, fun s hi h0 => ?_⟩
  have hhead := hi.tail_eq_head h0
  obtain ⟨-, htail, -, -⟩ := hi
  have hstores := storesByte_of_write (s := s) (t := { s.portMiss.acceptSync with count := 1 }) rfl
  exact ⟨_, exec_fifoPushPopMiss htail, rfl, hstores, rfl, rfl, rfl, rfl, fullSync_iff.trans eq_comm,
    hstores.memRead_of_eq hhead.symm, rfl, rfl, rfl, by simp [keepsBesides]⟩

/-- Settles O20: the byte at `head` leaves a full FIFO, and the new one is counted as dropped. -/
theorem dropWithHitKeepsTheStorage : Obligations.DropWithHitKeepsTheStorage := by
  refine ⟨decode_fow_ofNat (fow_push_pop true false rfl) rfl, fun s hi hfull => ?_⟩
  obtain ⟨hhead, -, hle, -⟩ := hi
  have h0 : s.count ≠ 0 := by omega
  have hcount := updateCount_pop (s := s.hitSync.dropByte) h0 hle
  exact ⟨_, exec_fifoDropPop hhead, rfl, rfl, rfl, rfl, hcount, satInc8_eq_ite _, keepsStorage_of_mem rfl,
    fullSync_of_count_dec hcount hle, hfull ▸ emptySync_iff_of_count_dec hcount, rfl, rfl, by simp [keepsBesides]⟩

end Sys2Proof.Machine

/-! ## Proofs: the drop counter of both variants (41_fifo.md R143)

Whatever runs in the write domain, the label `drop` and the counter's rise have one cause, the operation's drop bit. The two
variants differ only in how a step reaches that bit. -/

namespace Sys2Proof.Machine

/-! ### The label and the counter -/

theorem le_satInc8 (c : Byte) : c ≤ satInc8 c := by
  rw [satInc8_eq_ite]
  split <;> bv_omega

/-- The counter goes from `c` to `c'` as the producer's outcome of the cycle says: up by one, saturating, on a drop, and nowhere
on any other outcome. -/
def CountsDrop (c c' : Byte) (prod : ProdOutcome) : Prop :=
  ((∃ v, prod = .drop v) → c' = satInc8 c) ∧ ((∀ v, prod ≠ .drop v) → c' = c)

/-- The producer's part of an operation, by its accepted-enqueue and drop bits, which exclude each other. -/
theorem countsDrop_of_bits {c c' : Byte} {prod : ProdOutcome} {accOk drop : Bool} {v : Byte}
    (hexcl : (accOk && drop) = false) (hcount : c' = if drop then satInc8 c else c)
    (hprod : prod = if accOk then .accept v else if drop then .drop v else .none) : CountsDrop c c' prod := by
  subst hcount hprod
  cases drop
  · cases accOk <;> simp [CountsDrop]
  · obtain rfl : accOk = false := by simpa using hexcl
    simp [CountsDrop]

theorem CountsDrop.le {c c' : Byte} {prod : ProdOutcome} (h : CountsDrop c c' prod) : c ≤ c' := by
  obtain ⟨hdrop, hkeep⟩ := h
  by_cases hd : ∃ v, prod = .drop v
  · exact hdrop hd ▸ le_satInc8 c
  · exact hkeep (not_exists.1 hd) ▸ BitVec.le_refl c

/-! ### ASYNC = 0 -/

theorem SyncRunCycle.countsDrop {s t : State} {r : CycleRecord} (h : SyncRunCycle s t r) :
    CountsDrop s.dropCnt t.dropCnt r.prod := by
  refine countsDrop_of_bits ?_ h.dropCnt h.prod
  by_cases hfull : s.count = s.cfg.depth <;> simp [State.nextAccOk, State.nextDrop, hfull]

/-- The byte of a valid frame is dropped exactly if the FIFO is full at the start of the cycle. -/
theorem SyncRunCycle.drop_iff_full {s t : State} {r : CycleRecord} (h : SyncRunCycle s t r) {v : Byte}
    (hframe : r.dec = .frameOk v) : r.prod = .drop v ↔ s.count = s.cfg.depth := by
  have hpush : s.nextPush = some v := (h.frameOk v).1 hframe
  by_cases hfull : s.count = s.cfg.depth <;> simp [h.prod, State.nextAccOk, State.nextDrop, hpush, hfull]

/-! ### ASYNC = 1 -/

/-- With ASYNC = 1 RESET leaves the model's own fields, and at an edge that does not reset the write domain the drop counter and
the producer's outcome too. -/
theorem ResetEffect.keepsProducer {s t : State} (ha : s.cfg.async = true) (h : ResetEffect s t) :
    KeepsRest s t ∧ (s.writeResets = false → t.dropCnt = s.dropCnt ∧ t.sig.prod = s.sig.prod) := by
  obtain ⟨-, -, hrest, -, hasync⟩ := h
  obtain ⟨-, -, hkeeps, -⟩ := hasync ha
  refine ⟨hrest, fun hw => ?_⟩
  obtain ⟨-, hdrop, -, -, -, hprod⟩ := hkeeps hw
  exact ⟨hdrop, hprod⟩

/-- The read domain, whether it runs or not, leaves the model's own fields, the drop counter and the producer's outcome. -/
theorem readTurn_keepsProducer {s t : State} {runs hit : Bool} (h : if runs then ReadEffect s t hit else t = s) :
    KeepsRest s t ∧ t.dropCnt = s.dropCnt ∧ t.sig.prod = s.sig.prod := by
  cases runs
  · obtain rfl : t = s := h
    simp [KeepsRest]
  · obtain ⟨-, -, -, -, -, -, -, hdrop, hprod, -, -, -, -, hrest⟩ := h
    exact ⟨hrest, hdrop, hprod⟩

/-- The write domain's part of an edge leaves the model's own fields and counts a dropped byte. -/
theorem WritePartEffect.countsDrop {s t : State} (h : WritePartEffect s t) :
    KeepsRest s t ∧ CountsDrop s.dropCnt t.dropCnt t.sig.prod := by
  obtain ⟨u, hdec, -, -, -, -, -, hdrop, hprod, -, -, -, -, -, hrest⟩ := h
  obtain ⟨-, -, udrop, urest⟩ := hdec.keeps
  rw [udrop] at hdrop
  refine ⟨keepsRest_trans urest hrest, countsDrop_of_bits ?_ hdrop hprod⟩
  cases u.fullW <;> simp

/-- The write domain, whether it runs or not: where it does not, there is no drop if there was none so far. -/
theorem writeTurn_countsDrop {s t : State} {runs : Bool} (h : if runs then WritePartEffect s t else t = s) :
    KeepsRest s t ∧ (s.sig.prod = .none → CountsDrop s.dropCnt t.dropCnt t.sig.prod) := by
  cases runs
  · obtain rfl : t = s := h
    exact ⟨by simp [KeepsRest], fun hprod => by simp [CountsDrop, hprod]⟩
  · obtain ⟨hrest, hcounts⟩ := WritePartEffect.countsDrop h
    exact ⟨hrest, fun _ => hcounts⟩

/-- What a step of ASYNC = 1 records, and that its record counts the drops, unless it is a reset edge of `clk`. -/
theorem asyncStep_countsDrop {s t : State} (ha : s.cfg.async = true) (h : step s = .next t) :
    ∃ r, t.trace = r :: s.trace ∧
      (s.nextInput.rst = false ∨ risesClk s.nextInput.edge = false → CountsDrop s.dropCnt t.dropCnt r.prod) := by
  obtain ⟨-, u, v, w, hreset, hread, hwrite, rfl⟩ := asyncStep_cases ha h
  obtain ⟨urest, ukeeps⟩ := hreset.keepsProducer (s := s.sample.trackReset) ha
  obtain ⟨vrest, vdrop, vprod⟩ := readTurn_keepsProducer hread
  obtain ⟨wrest, wcounts⟩ := writeTurn_countsDrop hwrite
  obtain ⟨-, -, -, -, -, htrace, -⟩ := keepsRest_trans urest (keepsRest_trans vrest wrest)
  refine ⟨_, congrArg (List.cons _) htrace, fun hrst => ?_⟩
  have hw : s.sample.trackReset.writeResets = false := by
    change (risesClk s.nextInput.edge && s.nextInput.rst) = false
    rcases hrst with hr | he
    · simp [hr]
    · simp [he]
  obtain ⟨udrop, uprod⟩ := ukeeps hw
  have hdrop : v.dropCnt = s.dropCnt := vdrop.trans udrop
  rw [← hdrop]
  exact wcounts (vprod.trans uprod)

/-! ### Both variants -/

/-- What a step records, in either variant: outside a reset edge of `clk` the record counts the drops, and with ASYNC = 0 it also
says which frames are dropped. -/
theorem step_countsDrop {s t : State} (h : step s = .next t) :
    ∃ r, t.trace = r :: s.trace ∧
      ((s.nextInput.rst = false ∨ (s.cfg.async = true ∧ risesClk s.nextInput.edge = false)) →
        CountsDrop s.dropCnt t.dropCnt r.prod ∧
          (s.cfg.async = false → ∀ v, r.dec = .frameOk v → (r.prod = .drop v ↔ s.count = s.cfg.depth))) := by
  cases ha : s.cfg.async
  · obtain ⟨r, htrace, -, -, hrun⟩ := syncStep_record ha h
    refine ⟨r, htrace, fun hrst => ?_⟩
    have hcycle := hrun (by simpa using hrst)
    exact ⟨hcycle.countsDrop, fun _ _ => hcycle.drop_iff_full⟩
  · obtain ⟨r, htrace, hcounts⟩ := asyncStep_countsDrop ha h
    exact ⟨r, htrace, fun hrst => ⟨hcounts (by simpa using hrst), by simp⟩⟩

/-- Settles O48: the counter follows the label, and `sat_inc_8` never falls. -/
theorem dropCounterCountsDrops : Obligations.DropCounterCountsDrops := by
  intro s t ht
  obtain ⟨r, htrace, hcounts⟩ := step_countsDrop ht
  refine ⟨r, htrace, fun hrst => ?_⟩
  obtain ⟨hcount, hframe⟩ := hcounts hrst
  have hle := hcount.le
  obtain ⟨hdrop, hkeep⟩ := hcount
  exact ⟨fun hd => (hdrop hd).trans (satInc8_eq_ite _), hkeep, hle, hframe⟩

end Sys2Proof.Machine

/-! ## Proofs: the gray code, and the FIFO's operations of ASYNC = 1, one by one (42_fifo_async.md R164 to R174)

The gray code is linear in XOR, and a pointer and the next one, the wrap included, differ in a block of low bits, whose gray code
is a single bit. An operation that reaches the storage is, in a legal build, an update without a fault (`exec_wPush`, `exec_rPop`),
and what a pointer's advance makes of a count is a law of the pointers' distance (`ptrDiff_advance_left`,
`ptrDiff_advance_right`). -/

namespace Sys2Proof.Machine

/-! ### Consecutive pointers in gray code (R164) -/

theorem gray_xor (a b : Nat) : gray (a ^^^ b) = gray a ^^^ gray b := by
  refine Nat.eq_of_testBit_eq fun i => ?_
  simp only [testBit_gray, Nat.testBit_xor, Bool.xor_assoc, Bool.xor_left_comm]

/-- The gray code of a block of low ones is the block's top bit. -/
theorem gray_two_pow_sub_one (k : Nat) : gray (2 ^ (k + 1) - 1) = 2 ^ k := by
  refine Nat.eq_of_testBit_eq fun i => ?_
  rw [testBit_gray, Nat.testBit_two_pow_sub_one, Nat.testBit_two_pow_sub_one, Nat.testBit_two_pow]
  rcases Nat.lt_trichotomy i k with hlt | rfl | hgt
  · simp [hlt, Nat.lt_succ_of_lt hlt, hlt.ne']
  · simp
  · simp [hgt.ne, show ¬ i < k + 1 by omega, show ¬ i < k by omega]

/-- A counter of `n + 1` bits and its next value, the wrap included, differ in a block of low ones: an even counter in its last bit
alone, an odd one in its last bit and in what its half and the half's next value differ in. -/
theorem xor_next_eq_low_ones {n b : Nat} (h : b < 2 ^ (n + 1)) :
    ∃ k, k ≤ n ∧ b ^^^ ((b + 1) % 2 ^ (n + 1)) = 2 ^ (k + 1) - 1 := by
  induction n generalizing b with
  | zero => exact ⟨0, Nat.le_refl 0, by revert b; decide⟩
  | succ n ih =>
    rw [Nat.pow_succ'] at h ⊢
    obtain ⟨c, rfl | rfl⟩ := b.even_or_odd'
    · refine ⟨0, Nat.zero_le _, ?_⟩
      rw [Nat.mod_eq_of_lt (by omega)]
      simpa [Nat.bit_val] using Nat.xor_bit false c true c
    · obtain ⟨k, hk, hlow⟩ := ih (b := c) (by omega)
      refine ⟨k + 1, by omega, ?_⟩
      have hnext : (2 * c + 1 + 1) % (2 * 2 ^ (n + 1)) = 2 * ((c + 1) % 2 ^ (n + 1)) := by
        rw [← Nat.mul_mod_mul_left, Nat.mul_add]
      calc (2 * c + 1) ^^^ ((2 * c + 1 + 1) % (2 * 2 ^ (n + 1)))
          = (2 * c + 1) ^^^ (2 * ((c + 1) % 2 ^ (n + 1))) := by rw [hnext]
        _ = 2 * (c ^^^ ((c + 1) % 2 ^ (n + 1))) + 1 := by simpa [Nat.bit_val] using Nat.xor_bit true c false _
        _ = 2 ^ (k + 1 + 1) - 1 := by
          have hpos := Nat.two_pow_pos (k + 1)
          rw [hlow, Nat.pow_succ 2 (k + 1)]
          omega

/-! ### The words of the FOW_W and FOW_R tables as numbers (R168) -/

/-- The FOW_W `{enq, F_w}` or the FOW_R `{deq, E_r}` is the number `2 b1 + b0`. -/
theorem twoBits_eq_ofNat (b1 b0 : Bool) : twoBits b1 b0 = BitVec.ofNat 8 (2 * b1.toNat + b0.toNat) := by
  revert b1 b0
  decide

/-- A number of that form is read as the word's row says. -/
theorem decode_twoBits_ofNat {f : Format} {w : Nat} {b1 b0 : Bool} {i : Instr}
    (hrow : Sys2Proof.decode f (twoBits b1 b0) = .ok i) (hw : w = 2 * b1.toNat + b0.toNat) :
    Sys2Proof.decode f (BitVec.ofNat 8 w) = .ok i := by
  rw [hw, ← twoBits_eq_ofNat, hrow]

/-! ### The operations where their entry exists -/

theorem exec_wPush {s : State} (h : s.writeIndex < s.cfg.depth) : exec .wPush s = .next s.acceptAsync.shiftRq := by
  simp [exec, execWPush, guardEntry_of_lt h]

theorem exec_rPop {s : State} (h : s.readIndex < s.cfg.depth) : exec .rPop s = .next s.hitAsync.shiftWq := by
  simp [exec, execRPop, guardEntry_of_lt h]

/-- In a legal ASYNC = 1 build `x[AW-1:0]` is `x` modulo DEPTH (R160). -/
theorem index_eq_mod {c : Config} (hc : LegalConfig c) (ha : c.async = true) (x : Nat) :
    x % 2 ^ addrW c.depth = x % c.depth := by
  obtain ⟨-, hasync⟩ := hc
  obtain ⟨-, hpow, -⟩ := hasync ha
  rw [← hpow]

/-! ### A synchroniser's shift (R165) -/

theorem shifted_shiftIn (x : Nat) (q : List Nat) : Shifted x q (shiftIn x q) :=
  ⟨length_shiftIn x q, getElem?_shiftIn_zero x, fun _ => getElem?_shiftIn_succ x⟩

/-! ### The distance of two pointers, when one of them advances (R166, R167) -/

/-- A pointer in range moves on by one, or from the end of the range to 0. -/
theorem ptr_next {depth a : Nat} (ha : a < ptrMod depth) :
    (a + 1) % ptrMod depth = if a + 1 = ptrMod depth then 0 else a + 1 := by
  split
  · simp [*]
  · exact Nat.mod_eq_of_lt (by omega)

/-- A write pointer that advances is one further ahead, unless the distance wraps. -/
theorem ptrDiff_advance_left {depth a b : Nat} (ha : a < ptrMod depth) (hb : b < ptrMod depth)
    (h : ptrDiff depth a b + 1 < ptrMod depth) :
    ptrDiff depth ((a + 1) % ptrMod depth) b = ptrDiff depth a b + 1 := by
  have hnext := Nat.mod_lt (a + 1) (ptrMod_pos depth)
  rw [ptrDiff_eq ha hb] at h ⊢
  rw [ptrDiff_eq hnext hb, ptr_next ha]
  split_ifs at h ⊢ <;> omega

/-- A read pointer that advances is one less behind, unless it is not behind. -/
theorem ptrDiff_advance_right {depth a b : Nat} (ha : a < ptrMod depth) (hb : b < ptrMod depth)
    (h : ptrDiff depth a b ≠ 0) :
    ptrDiff depth a ((b + 1) % ptrMod depth) + 1 = ptrDiff depth a b := by
  have hnext := Nat.mod_lt (b + 1) (ptrMod_pos depth)
  rw [ptrDiff_eq ha hb] at h ⊢
  rw [ptrDiff_eq ha hnext, ptr_next hb]
  split_ifs at h ⊢ <;> omega

/-! ### What each side counts (R166, R167) -/

theorem fullW_eq_false_iff {s : State} : s.fullW = false ↔ s.countW ≠ s.cfg.depth := by simp [State.fullW]

theorem emptyR_eq_false_iff {s : State} : s.emptyR = false ↔ s.countR ≠ 0 := by simp [State.emptyR]

/-- What the write side counts is one of the lags, that of its synchroniser's last stage. -/
theorem countW_mem_lagsW {s : State} (h : 0 < s.rq.length) : s.countW ∈ s.lagsW :=
  List.mem_map_of_mem (List.mem_cons_of_mem _ (List.mem_map_of_mem (lastStage_mem h)))

/-- The write side never counts more than DEPTH. -/
theorem countW_le_depth {s : State} (hc : LegalConfig s.cfg) (ha : s.cfg.async = true) (hp : s.PointerInv)
    (hl : s.LagInv) : s.countW ≤ s.cfg.depth := by
  obtain ⟨-, hasync⟩ := hc
  obtain ⟨-, -, hstages⟩ := hasync ha
  obtain ⟨-, -, -, -, hlen, -⟩ := hp
  obtain ⟨-, hle, -⟩ := hl
  exact hle _ (countW_mem_lagsW (by omega))

/-- A write pointer that advances while the read pointer it sees stays counts one byte more, if the FIFO was not full. -/
theorem countW_advance {s t : State} (hc : LegalConfig s.cfg) (ha : s.cfg.async = true) (hp : s.PointerInv)
    (hl : s.LagInv) (hfull : s.fullW = false) (hcfg : t.cfg = s.cfg)
    (hwbin : t.wbin = (s.wbin + 1) % ptrMod s.cfg.depth) (hseen : t.rseen = s.rseen) : t.countW = s.countW + 1 := by
  have hle := countW_le_depth hc ha hp hl
  have hroom := fullW_eq_false_iff.1 hfull
  have hmod := ptrMod_legal hc ha
  obtain ⟨hw, -⟩ := hp
  rw [State.countW, hcfg, hwbin, hseen]
  exact ptrDiff_advance_left hw (ungray_lt _ _) (show s.countW + 1 < _ by omega)

/-- A read pointer that advances while the write pointer it sees stays counts one byte less, if there was one. -/
theorem countR_advance {s t : State} (hp : s.PointerInv) (hempty : s.emptyR = false) (hcfg : t.cfg = s.cfg)
    (hrbin : t.rbin = (s.rbin + 1) % ptrMod s.cfg.depth) (hseen : t.wseen = s.wseen) : t.countR + 1 = s.countR := by
  obtain ⟨-, hr, -⟩ := hp
  rw [State.countR, hcfg, hrbin, hseen]
  exact ptrDiff_advance_right (ungray_lt _ _) hr (emptyR_eq_false_iff.1 hempty)

/-! ### The statements -/

/-- Settles O53: the two ends of one step of a pointer differ in a block of low ones, and `gray` is linear. -/
theorem grayCodeChangesOneBit : Obligations.GrayCodeChangesOneBit := by
  intro depth b hb
  have htop : (ungray depth b).testBit (addrW depth + 1) = false := Nat.testBit_lt_two_pow (ungray_lt depth b)
  obtain ⟨k, hk, hlow⟩ := xor_next_eq_low_ones hb
  refine ⟨rfl, gray_lt hb, ungray_gray hb, gray_ungray hb, ?_, fun i hi => testBit_ungray depth b hi.le, k, hk, ?_⟩
  · simpa [htop] using testBit_ungray depth b (Nat.le_refl (addrW depth))
  · rw [← gray_xor, ptrMod, hlow, gray_two_pow_sub_one]

/-- Settles O21: the operation writes the synchroniser and the producer's outcome alone. -/
theorem writeIdleOnlyShifts : Obligations.WriteIdleOnlyShifts := by
  intro s fullW
  refine ⟨decode_twoBits_ofNat (fowW_idle fullW) (by simp), _, rfl, ?_⟩
  exact ⟨rfl, rfl, keepsStorage_of_mem rfl, shifted_shiftIn _ _, rfl, rfl, by and_intros <;> rfl⟩

/-- Settles O22: the index is an entry of the storage, and the count's rise is the pointer's. -/
theorem writePushStoresAtTheWritePointer : Obligations.WritePushStoresAtTheWritePointer := by
  refine ⟨decode_twoBits_ofNat (fowW_push false) rfl, fun s hc ha => ?_⟩
  have hstores : StoresByte s s.acceptAsync.shiftRq s.writeIndex s.sig.pushv := storesByte_of_write rfl
  rw [State.writeIndex, index_eq_mod hc ha] at hstores
  rw [← ptrMod_legal hc ha]
  refine ⟨_, exec_wPush (index_lt hc ha _), hstores, rfl, rfl, shifted_shiftIn _ _, rfl, rfl, ?_, by and_intros <;> rfl⟩
  exact fun hp hl hfull => countW_advance hc ha hp hl hfull rfl rfl

/-- Settles O23: the operation writes the drop counter, the synchroniser and the producer's outcome alone. -/
theorem writeDropCountsTheByte : Obligations.WriteDropCountsTheByte := by
  refine ⟨decode_twoBits_ofNat (fowW_push true) rfl, fun s => ⟨_, rfl, ?_⟩⟩
  exact ⟨satInc8_eq_ite _, rfl, rfl, keepsStorage_of_mem rfl, shifted_shiftIn _ _, rfl, by and_intros <;> rfl⟩

/-- Settles O24: both operations write the synchroniser and the read port alone. -/
theorem readIdleAndMissOnlyShift : Obligations.ReadIdleAndMissOnlyShift := by
  refine ⟨decode_twoBits_ofNat (fowR_pop true) rfl, fun s emptyR => ⟨?_, ?_, ?_⟩⟩
  · exact decode_twoBits_ofNat (fowR_idle emptyR) (by simp)
  · exact ⟨_, rfl, rfl, rfl, rfl, rfl, shifted_shiftIn _ _, keepsStorage_of_mem rfl, by and_intros <;> rfl⟩
  · exact ⟨_, rfl, rfl, rfl, rfl, rfl, shifted_shiftIn _ _, keepsStorage_of_mem rfl, by and_intros <;> rfl⟩

/-- Settles O25: the index is an entry of the storage, and the count's fall is the pointer's. -/
theorem readPopDeliversTheByteAtTheReadPointer : Obligations.ReadPopDeliversTheByteAtTheReadPointer := by
  refine ⟨decode_twoBits_ofNat (fowR_pop false) rfl, fun s hc ha => ?_⟩
  rw [← index_eq_mod hc ha, ← ptrMod_legal hc ha]
  refine ⟨_, exec_rPop (index_lt hc ha _), rfl, rfl, rfl, rfl, rfl, shifted_shiftIn _ _, keepsStorage_of_mem rfl, rfl, ?_,
    by and_intros <;> rfl⟩
  exact fun hp _ hempty => countR_advance hp hempty rfl rfl

end Sys2Proof.Machine

/-! ## Proofs: the event handshake of both variants (60_exceptions.md R184)

A cycle of `clk` is a reset cycle, which takes no step and clears `ack`, or it runs the decoder's part, which takes a step exactly
if `evt && !ack` and copies `evt` to `ack`. What else a cycle does, at the FIFO or in the read domain, touches neither `ack` nor the
decoder's outcome. -/

namespace Sys2Proof.Machine

/-! ### The rule of a cycle -/

/-- A cycle of `clk` with inputs `i` takes `ack` to `ack'` with the decoder outcome `dec` as R184 says: a step exactly if
`!rst && evt && !ack`, and `ack <- rst ? 0 : evt`. -/
def Handshakes (i : PortIn) (ack ack' : Bool) (dec : DecOutcome) : Prop :=
  (dec ≠ .none ↔ (i.rst = false ∧ i.evt = true ∧ ack = false)) ∧ ack' = (!i.rst && i.evt)

theorem handshakes_of_reset {i : PortIn} {ack ack' : Bool} {dec : DecOutcome} (hr : i.rst = true)
    (hack : ack' = false) (hdec : dec = .none) : Handshakes i ack ack' dec := by
  simp [Handshakes, hr, hack, hdec]

theorem handshakes_of_run {i : PortIn} {ack ack' : Bool} {dec : DecOutcome} (hr : i.rst = false)
    (hack : ack' = i.evt) (hdec : dec ≠ .none ↔ (i.evt && !ack) = true) : Handshakes i ack ack' dec := by
  simp [Handshakes, hr, hack, hdec]

/-- After a cycle `ack` is 0 exactly if `evt` was 0 or reset was active in it. -/
theorem Handshakes.ack_eq_false_iff {i : PortIn} {ack ack' : Bool} {dec : DecOutcome} (h : Handshakes i ack ack' dec) :
    ack' = false ↔ (i.evt = false ∨ i.rst = true) := by
  obtain ⟨-, rfl⟩ := h
  cases i.rst <;> simp

/-! ### ASYNC = 0 -/

theorem syncStep_handshakes {s t : State} (ha : s.cfg.async = false) (h : step s = .next t) :
    ∃ r, t.trace = r :: s.trace ∧ Handshakes s.nextInput s.ack t.ack r.dec := by
  obtain ⟨r, htrace, -, hreset, hrun⟩ := syncStep_record ha h
  refine ⟨r, htrace, ?_⟩
  cases hr : s.nextInput.rst
  · exact handshakes_of_run hr (hrun hr).ack (hrun hr).dec
  · obtain ⟨-, -, -, hack⟩ := (hreset hr).decoder
    obtain ⟨hdec, -⟩ := (hreset hr).labels
    exact handshakes_of_reset hr hack hdec

/-! ### ASYNC = 1 -/

/-- The read domain, whether it runs or not, leaves `ack` and the decoder's outcome. -/
theorem readTurn_keepsHandshake {s t : State} {runs hit : Bool} (h : if runs then ReadEffect s t hit else t = s) :
    t.ack = s.ack ∧ t.sig.dec = s.sig.dec := by
  cases runs
  · obtain rfl : t = s := h
    exact ⟨rfl, rfl⟩
  · obtain ⟨-, -, -, -, -, -, -, -, -, ⟨-, -, -, hack⟩, ⟨-, -, hdec⟩, -⟩ := h
    exact ⟨hack, hdec⟩

/-- The write domain's part of an edge copies `evt` to `ack`, and its outcome is a step's exactly in a step cycle. -/
theorem WritePartEffect.handshake {s t : State} (h : WritePartEffect s t) :
    t.ack = s.sig.inp.evt ∧ (t.sig.dec ≠ .none ↔ s.takesStep = true) := by
  obtain ⟨u, hdec, hstep, -, -, -, -, -, -, ⟨-, -, -, hack⟩, ⟨-, -, hlabel⟩, -⟩ := h
  obtain ⟨-, -, -, uack, -⟩ := hdec.writes
  exact ⟨hack.trans uack, hlabel ▸ hstep⟩

/-- RESET at an edge of `clk` with `rst` = 1 clears `ack` and takes no step; where `rst` is 0 it leaves `ack`. -/
theorem ResetEffect.handshake {s t : State} (ha : s.cfg.async = true) (h : ResetEffect s t) :
    (s.writeResets = true → t.ack = false ∧ t.sig.dec = .none) ∧ (s.writeResets = false → t.ack = s.ack) := by
  obtain ⟨-, -, -, -, hasync⟩ := h
  obtain ⟨-, hresets, hkeeps, -⟩ := hasync ha
  refine ⟨fun hw => ?_, fun hw => ?_⟩
  · obtain ⟨-, -, -, hack, -, -, -, hdec, -⟩ := hresets hw
    exact ⟨hack, hdec⟩
  · obtain ⟨⟨-, -, -, hack⟩, -⟩ := hkeeps hw
    exact hack

/-- At an edge of `clk` the write domain resets or runs by `rst` alone. -/
theorem writeResets_sample {s : State} (he : risesClk s.nextInput.edge = true) :
    s.sample.writeResets = s.nextInput.rst := by
  rw [State.writeResets, sample_inp, he, Bool.true_and]

theorem writeRuns_sample {s : State} (he : risesClk s.nextInput.edge = true) :
    s.sample.writeRuns = !s.nextInput.rst := by
  rw [State.writeRuns, sample_inp, he, Bool.true_and]

theorem asyncStep_handshakes {s t : State} (ha : s.cfg.async = true) (he : risesClk s.nextInput.edge = true)
    (h : step s = .next t) : ∃ r, t.trace = r :: s.trace ∧ Handshakes s.nextInput s.ack t.ack r.dec := by
  obtain ⟨-, u, v, w, hreset, hread, hwrite, rfl⟩ := asyncStep_cases ha h
  obtain ⟨urest, -⟩ := hreset.keepsProducer (s := s.sample.trackReset) ha
  obtain ⟨vrest, -⟩ := readTurn_keepsProducer hread
  obtain ⟨wrest, -⟩ := writeTurn_countsDrop hwrite
  have vkeeps := keepsRest_trans urest vrest
  obtain ⟨-, -, -, -, -, htrace, -⟩ := keepsRest_trans vkeeps wrest
  refine ⟨_, congrArg (List.cons _) htrace, ?_⟩
  obtain ⟨ureset, ukeeps⟩ := hreset.handshake (s := s.sample.trackReset) ha
  obtain ⟨vack, vdec⟩ := readTurn_keepsHandshake hread
  have hresets : s.sample.trackReset.writeResets = s.nextInput.rst := writeResets_sample he
  rw [hresets] at ureset ukeeps
  rw [writeRuns_sample he] at hwrite
  cases hr : s.nextInput.rst <;> rw [hr] at hwrite
  · obtain ⟨wack, wdec⟩ := WritePartEffect.handshake hwrite
    obtain ⟨-, -, -, -, -, -, hinp⟩ := vkeeps
    rw [State.takesStep, vack, ukeeps hr, hinp] at wdec
    rw [hinp] at wack
    exact handshakes_of_run hr wack wdec
  · obtain rfl : w = v := hwrite
    obtain ⟨uack, udec⟩ := ureset hr
    exact handshakes_of_reset hr (vack.trans uack) (vdec.trans udec)

/-! ### Both variants -/

theorem step_handshakes {s t : State} (he : s.cfg.async = false ∨ risesClk s.nextInput.edge = true)
    (h : step s = .next t) : ∃ r, t.trace = r :: s.trace ∧ Handshakes s.nextInput s.ack t.ack r.dec := by
  cases ha : s.cfg.async
  · exact syncStep_handshakes ha h
  · exact asyncStep_handshakes ha (by simpa [ha] using he) h

/-- Settles O43: the rule of a cycle, and the `ack` it leaves tells the next edge whether `evt` was 0 or reset was active. -/
theorem eventHandshakeDetectsARisingEvent : Obligations.EventHandshakeDetectsARisingEvent := by
  intro s t he ht
  obtain ⟨r, htrace, hcycle⟩ := step_handshakes he ht
  have hclear := hcycle.ack_eq_false_iff
  obtain ⟨hstep, hack⟩ := hcycle
  exact ⟨r, htrace, hstep, hack, by rw [hclear]⟩

end Sys2Proof.Machine

/-! ## Proofs: reset cycles of ASYNC = 0 (70_reset_and_hazards.md R201)

RESET answers in every state, so a cycle of ASYNC = 0 with `rst` = 1 does too, with no invariant on the state and whatever the
other inputs are. What such a cycle records and what it makes of the registers is `syncStep_record`. -/

namespace Sys2Proof.Machine

/-- A cycle of ASYNC = 0 with `rst` = 1 is RESET on the sampled state, closed. -/
theorem syncStep_of_reset {s : State} (ha : s.cfg.async = false) (hr : s.nextInput.rst = true) :
    ∃ u, ResetEffect s.sample u ∧ step s = .next (u.close s.sample) := by
  have hrst : s.sample.sig.inp.rst = true := hr
  have hpiw : s.sample.samplesReset = true := by simpa [State.samplesReset, ha] using hr
  obtain ⟨u, hu, heffect⟩ := reset_next s.sample s.nextInput.evt s.nextInput.dat s.nextInput.deq
  have hcycle : cycle s.sample = .next u := by
    calc cycle s.sample = cycleSync s.sample := by simp [cycle, ha]
      _ = execWord .piw s.sample.piwOf s.sample := by rw [cycleSync, if_pos hrst]
      _ = .next u := (execWord_piw hpiw).trans hu
  exact ⟨u, heffect, step_eq_next.2 ⟨u, hcycle, rfl⟩⟩

/-- With ASYNC = 0 nothing is pushed in a reset cycle. -/
theorem ResetEffect.push {s t : State} (ha : s.cfg.async = false) (h : ResetEffect s t) : t.sig.push = false := by
  obtain ⟨-, -, -, hsync, -⟩ := h
  obtain ⟨-, -, -, -, -, -, -, -, -, -, hpush, -⟩ := hsync ha
  exact hpush

/-- Settles O3: the step is RESET's, and its record shows the registers before the edge. -/
theorem resetCycleOverridesEveryInput : Obligations.ResetCycleOverridesEveryInput := by
  intro s ha hr
  obtain ⟨u, hu, hstep⟩ := syncStep_of_reset ha hr
  obtain ⟨r, htrace, hshows, hreset, -⟩ := syncStep_record ha hstep
  have h := hreset hr
  obtain ⟨hp, hacc, hones, hack⟩ := h.decoder
  obtain ⟨hhead, htail, hcount⟩ := h.fifo
  obtain ⟨hdec, hprod, hcons⟩ := h.labels
  have hpush : u.sig.push = false := hu.push (s := s.sample) ha
  exact ⟨_, r, hstep, htrace, hp, hacc, hones, hack, hhead, htail, hcount, h.dropCnt, h.storage, hpush,
    hdec, hprod, hcons, h.rdValid, hshows.ack, hshows.empty, hshows.full, hshows.count, hshows.dropCnt, hshows.rdData⟩

end Sys2Proof.Machine

/-! ## Proofs: the words and their decoder (30_encoding.md R74 to R79, R82; 42_fifo_async.md R168)

A byte with no bit above its format's width is the word of its own fields (`dewWord_fields`, `fourBits_fields`, `twoBits_fields`),
so the rows of a format's table say what every byte that decodes in it is. -/

namespace Sys2Proof.Machine

/-! ### A byte in range is the word of its fields -/

theorem dewWord_fields {w : Byte} (h : w.toNat < 64) :
    dewWord (w.extractLsb' 2 4) (w.getLsbD 1) (w.getLsbD 0) = w := by
  revert w
  decide

theorem fourBits_fields {w : Byte} (h : w.toNat < 16) :
    fourBits (w.getLsbD 3) (w.getLsbD 2) (w.getLsbD 1) (w.getLsbD 0) = w := by
  revert w
  decide

theorem twoBits_fields {w : Byte} (h : w.toNat < 4) : twoBits (w.getLsbD 1) (w.getLsbD 0) = w := by
  revert w
  decide

/-- A byte that decodes has no bit above its format's width. -/
theorem toNat_lt_of_decode {f : Format} {w : Byte} {i : Instr} (h : Sys2Proof.decode f w = .ok i) :
    w.toNat < 2 ^ formatWidth f := by
  by_contra hstray
  simp [Sys2Proof.decode, Nat.not_lt.1 hstray] at h

/-! ### What a byte that decodes is -/

/-- The operation is the reading of the word `w` of format `f`. -/
def IsReadingOf (i : Instr) (f : Format) (w : Byte) : Prop :=
  WellFormed i = true ∧ formatOf i = f ∧ encode i = w

/-- A word's row gives the operation it decodes to, so what holds of the row's operation holds of the decoded one. -/
theorem isReadingOf_of_row {f : Format} {w : Byte} {i j : Instr} (h : Sys2Proof.decode f w = .ok i)
    (hrow : Sys2Proof.decode f w = .ok j) (hj : IsReadingOf j f w) : IsReadingOf i f w := by
  rw [hrow] at h
  cases h
  exact hj

/-- A slot of 12 or more is written as `11` and its two low bits. -/
theorem slot_of_recoverC {p : Nibble} (h : 12 ≤ p.toNat) : 3#2 ++ p.extractLsb' 0 2 = p := by
  revert p
  decide

theorem isReadingOf_of_dew {p : Nibble} {ones0 dat : Bool} {i : Instr}
    (h : Sys2Proof.decode .dew (dewWord p ones0 dat) = .ok i) : IsReadingOf i .dew (dewWord p ones0 dat) := by
  rcases nibble_cases p with rfl | rfl | rfl | rfl | rfl | rfl | rfl | rfl | rfl | rfl | rfl | rfl | hp
  · refine isReadingOf_of_row h (dew_start ones0 dat) ?_
    cases dat <;> exact ⟨rfl, rfl, rfl⟩
  · exact isReadingOf_of_row h (dew_data0 ones0 dat) ⟨rfl, rfl, rfl⟩
  · exact isReadingOf_of_row h (dew_data1 ones0 dat) ⟨rfl, rfl, rfl⟩
  · exact isReadingOf_of_row h (dew_data2 ones0 dat) ⟨rfl, rfl, rfl⟩
  · exact isReadingOf_of_row h (dew_data3 ones0 dat) ⟨rfl, rfl, rfl⟩
  · exact isReadingOf_of_row h (dew_data4 ones0 dat) ⟨rfl, rfl, rfl⟩
  · exact isReadingOf_of_row h (dew_data5 ones0 dat) ⟨rfl, rfl, rfl⟩
  · exact isReadingOf_of_row h (dew_data6 ones0 dat) ⟨rfl, rfl, rfl⟩
  · exact isReadingOf_of_row h (dew_data7 ones0 dat) ⟨rfl, rfl, rfl⟩
  · refine isReadingOf_of_row h (dew_parity ones0 dat) ?_
    cases ones0 <;> cases dat <;> exact ⟨rfl, rfl, rfl⟩
  · refine isReadingOf_of_row h (dew_stop ones0 dat) ?_
    cases dat <;> exact ⟨rfl, rfl, rfl⟩
  · exact isReadingOf_of_row h (dew_recoverB ones0 dat) ⟨rfl, rfl, rfl⟩
  · refine isReadingOf_of_row h (dew_recoverC p ones0 dat hp) ⟨rfl, rfl, ?_⟩
    rw [encode, slot_of_recoverC hp]

theorem isReadingOf_of_fow {enq deq full empty : Bool} {i : Instr}
    (h : Sys2Proof.decode .fow (fourBits enq deq full empty) = .ok i) :
    IsReadingOf i .fow (fourBits enq deq full empty) := by
  cases hflags : full && empty
  · cases enq <;> cases deq
    · exact isReadingOf_of_row h (fow_idle full empty hflags) ⟨by simp [WellFormed, idleFlagsOk, hflags], rfl, rfl⟩
    · refine isReadingOf_of_row h (fow_pop full empty hflags) ?_
      cases empty
      · exact ⟨rfl, rfl, rfl⟩
      · exact ⟨by simpa [WellFormed, missFlagsOk] using hflags, rfl, rfl⟩
    · refine isReadingOf_of_row h (fow_push full empty hflags) ?_
      cases full
      · exact ⟨rfl, rfl, rfl⟩
      · exact ⟨by simpa [WellFormed, dropFlagsOk] using hflags, rfl, rfl⟩
    · refine isReadingOf_of_row h (fow_push_pop full empty hflags) ?_
      cases full <;> cases empty
      · exact ⟨rfl, rfl, rfl⟩
      · exact ⟨rfl, rfl, rfl⟩
      · exact ⟨rfl, rfl, rfl⟩
      · cases hflags
  · obtain ⟨rfl, rfl⟩ := Bool.and_eq_true_iff.1 hflags
    exact isReadingOf_of_row h (fow_full_empty enq deq) ⟨rfl, rfl, rfl⟩

theorem isReadingOf_of_fowW {enq full : Bool} {i : Instr} (h : Sys2Proof.decode .fowW (twoBits enq full) = .ok i) :
    IsReadingOf i .fowW (twoBits enq full) := by
  cases enq
  · exact isReadingOf_of_row h (fowW_idle full) ⟨rfl, rfl, rfl⟩
  · refine isReadingOf_of_row h (fowW_push full) ?_
    cases full <;> exact ⟨rfl, rfl, rfl⟩

theorem isReadingOf_of_fowR {deq empty : Bool} {i : Instr} (h : Sys2Proof.decode .fowR (twoBits deq empty) = .ok i) :
    IsReadingOf i .fowR (twoBits deq empty) := by
  cases deq
  · exact isReadingOf_of_row h (fowR_idle empty) ⟨rfl, rfl, rfl⟩
  · refine isReadingOf_of_row h (fowR_pop empty) ?_
    cases empty <;> exact ⟨rfl, rfl, rfl⟩

/-- A PIW without `rst` is no operation. -/
theorem piw_notReset (evt dat deq : Bool) :
    Sys2Proof.decode .piw (fourBits false evt dat deq) = .error .notReset := by
  revert evt dat deq
  decide

theorem isReadingOf_of_piw {rst evt dat deq : Bool} {i : Instr}
    (h : Sys2Proof.decode .piw (fourBits rst evt dat deq) = .ok i) : IsReadingOf i .piw (fourBits rst evt dat deq) := by
  cases rst
  · rw [piw_notReset] at h
    cases h
  · exact isReadingOf_of_row h (piw_reset evt dat deq) ⟨rfl, rfl, rfl⟩

/-- Settles O28: a byte that decodes is the word of its fields, and the table's row for them says the rest. -/
theorem everyDecodedWordIsTheEncoding : Obligations.EveryDecodedWordIsTheEncoding := by
  intro f w i hf h
  have hw := toNat_lt_of_decode h
  cases f
  case dew =>
    rw [← dewWord_fields hw] at h ⊢
    exact isReadingOf_of_dew h
  case fow =>
    rw [← fourBits_fields hw] at h ⊢
    exact isReadingOf_of_fow h
  case fowW =>
    rw [← twoBits_fields hw] at h ⊢
    exact isReadingOf_of_fowW h
  case fowR =>
    rw [← twoBits_fields hw] at h ⊢
    exact isReadingOf_of_fowR h
  case piw =>
    rw [← fourBits_fields hw] at h ⊢
    exact isReadingOf_of_piw h
  case noWord => exact absurd rfl hf

/-! ### Every operation is read back -/

/-- Every well-formed operation is read back from its word: by its format's row for the word's fields. -/
theorem decode_encode {i : Instr} (h : WellFormed i = true) : Sys2Proof.decode (formatOf i) (encode i) = .ok i := by
  cases i
  case decIdle ones0 => exact dew_start ones0 true
  case decStart ones0 => exact dew_start ones0 false
  case decData0 ones0 dat => exact dew_data0 ones0 dat
  case decData1 ones0 dat => exact dew_data1 ones0 dat
  case decData2 ones0 dat => exact dew_data2 ones0 dat
  case decData3 ones0 dat => exact dew_data3 ones0 dat
  case decData4 ones0 dat => exact dew_data4 ones0 dat
  case decData5 ones0 dat => exact dew_data5 ones0 dat
  case decData6 ones0 dat => exact dew_data6 ones0 dat
  case decData7 ones0 dat => exact dew_data7 ones0 dat
  case decParOkE => exact dew_parity false true
  case decParOkO => exact dew_parity true false
  case decParBadE => exact dew_parity false false
  case decParBadO => exact dew_parity true true
  case decStopOk ones0 => exact dew_stop ones0 true
  case decStopBad ones0 => exact dew_stop ones0 false
  case decRecoverB ones0 dat => exact dew_recoverB ones0 dat
  case decRecoverC plow ones0 dat =>
    revert plow ones0 dat
    decide
  case decHold => rfl
  case fifoImpossible enq deq => exact fow_full_empty enq deq
  case fifoIdle full empty => exact fow_idle full empty (Bool.not_inj (y := false) h)
  case fifoPush empty => exact fow_push false empty rfl
  case fifoPushDrop empty => exact fow_push true empty (by simpa [WellFormed, dropFlagsOk] using h)
  case fifoPop full => exact fow_pop full false (Bool.and_false full)
  case fifoPopMiss full => exact fow_pop full true (by simpa [WellFormed, missFlagsOk] using h)
  case fifoPushPop => exact fow_push_pop false false rfl
  case fifoPushPopMiss => exact fow_push_pop false true rfl
  case fifoDropPop => exact fow_push_pop true false rfl
  case wIdle full => exact fowW_idle full
  case wPush => exact fowW_push false
  case wDrop => exact fowW_push true
  case rIdle empty => exact fowR_idle empty
  case rPop => exact fowR_pop false
  case rMiss => exact fowR_pop true
  case reset evt dat deq => exact piw_reset evt dat deq

/-! ### The two-byte table word (log entry 5) -/

theorem formatOfTag_formatTag (f : Format) : formatOfTag (formatTag f) = some f := by cases f <;> rfl

/-- A table word of two bytes is the word in its low byte, read in the format its high byte names. -/
theorem decodeTableWord_tableWord {i : Instr} (h : Sys2Proof.decode (formatOf i) (encode i) = .ok i) :
    decodeTableWord 16 (tableWord i) = some i := by
  have hbyte := (encode i).isLt
  have htag : tableWord i / 256 = formatTag (formatOf i) := by
    rw [tableWord]
    omega
  have hword : BitVec.ofNat 8 (tableWord i % 256) = encode i := by
    rw [show tableWord i % 256 = (encode i).toNat by rw [tableWord]; omega, BitVec.ofNat_toNat, BitVec.setWidth_eq]
  simp [decodeTableWord, htag, formatOfTag_formatTag, hword, h]

/-- Settles O27: an operation is read back from its word, and so from the table word that holds it. -/
theorem decodeReadsBackEveryEncoding : Obligations.DecodeReadsBackEveryEncoding := by
  intro i hi
  exact ⟨decode_encode hi, decodeTableWord_tableWord (decode_encode hi)⟩

/-- Settles O26: each word by the decoder itself. -/
theorem specWordsDecodeToTheirRows : Obligations.SpecWordsDecodeToTheirRows := by
  and_intros <;> rfl

/-! ### Presenting a decoder operation (log entry 7) -/

/-- Every decoder operation that has a word is well-formed: no row of the DEW table hides another (R75). -/
theorem wellFormed_of_dew {i : Instr} (h : formatOf i = .dew) : WellFormed i = true := by
  revert h
  cases i <;> simp [formatOf, WellFormed]

/-- A presented DEW is the one the sampled state forms: its slot, its `ones[0]` and its bit are the presented word's. -/
theorem dewOf_presentDew (s : State) {w : Byte} (hw : w.toNat < 64) : (s.presentDew w).sample.dewOf = w := by
  have hones : ((s.ones &&& 14#4) ||| (w.extractLsb' 1 1).setWidth 4).getLsbD 0 = w.getLsbD 1 := by
    simp
  calc (s.presentDew w).sample.dewOf
      = dewWord (w.extractLsb' 2 4) (((s.ones &&& 14#4) ||| (w.extractLsb' 1 1).setWidth 4).getLsbD 0) (w.getLsbD 0) := rfl
    _ = w := by rw [hones, dewWord_fields hw]

/-- Settles O32: the table word is read back, and the state presented forms its word. -/
theorem presentedDecoderWordIsFormedNext : Obligations.PresentedDecoderWordIsFormedNext := by
  intro s i hi
  have hdecode := decode_encode (wellFormed_of_dew hi)
  have hpresent : s.withFetchWord 16 (tableWord i) = s.presentDew (encode i) := by
    rw [State.withFetchWord, decodeTableWord_tableWord hdecode]
    simp only [State.present, hi]
  rw [hi] at hdecode
  rw [hpresent]
  exact ⟨rfl, by rw [dewOf_presentDew s (toNat_lt_of_decode hdecode), hdecode], rfl⟩

end Sys2Proof.Machine

/-! ## Proofs: what a step can do to the build and the storage (10_state.md R25, R34; 20_memory.md R50)

What holds of one operation holds of a step: a step samples, tracks the joint reset, runs operations, resolves the synchronisers
and closes (`step_keeps`). An operation either leaves the storage or writes one entry below DEPTH, and leaves the build
(`exec_touches`). -/

namespace Sys2Proof.Machine

/-! ### From operations to steps -/

/-- A part of an edge that runs only under a condition. -/
theorem part_keeps {P : State → Prop} {c : Bool} {s t : State} {part : Result} (hpart : part = .next t → P t) (hs : P s)
    (h : (if c then part else .next s) = .next t) : P t := by
  cases c
  · cases h
    exact hs
  · exact hpart h

section
variable {P : State → Prop} (hexec : ∀ i s t, P s → exec i s = .next t → P t)
include hexec

theorem execWord_keeps {f : Format} {w : Byte} {s t : State} (hs : P s) (h : execWord f w s = .next t) : P t := by
  unfold execWord at h
  cases hd : Sys2Proof.decode f w with
  | error e =>
    rw [hd] at h
    cases h
  | ok i =>
    rw [hd] at h
    exact hexec i s t hs h

theorem decoderPart_keeps {s t : State} (hs : P s) (h : decoderPart s = .next t) : P t := by
  unfold decoderPart at h
  split at h <;> exact execWord_keeps hexec hs h

theorem cycleSync_keeps {s t : State} (hs : P s) (h : cycleSync s = .next t) : P t := by
  unfold cycleSync at h
  split at h
  · exact execWord_keeps hexec hs h
  · obtain ⟨u, hu, ht⟩ := andThen_eq_next.1 h
    exact execWord_keeps hexec (decoderPart_keeps hexec hs hu) ht

theorem writePart_keeps {s t : State} (hs : P s) (h : writePart s = .next t) : P t := by
  obtain ⟨u, hu, ht⟩ := andThen_eq_next.1 h
  exact execWord_keeps hexec (decoderPart_keeps hexec hs hu) ht

theorem resetPart_keeps {s t : State} (hs : P s) (h : resetPart s = .next t) : P t := by
  unfold resetPart at h
  split at h
  · exact execWord_keeps hexec hs h
  · cases h
    exact hs

theorem clockDomains_keeps (hresolve : ∀ s old, P s → P (s.resolveStage1 old)) {s t : State} (hs : P s)
    (h : clockDomains s = .next t) : P t := by
  obtain ⟨u, hu, h⟩ := andThen_eq_next.1 h
  obtain ⟨v, hv, h⟩ := andThen_eq_next.1 h
  obtain ⟨w, hw, h⟩ := andThen_eq_next.1 h
  cases h
  have pu := resetPart_keeps hexec hs hu
  have pv := part_keeps (execWord_keeps hexec pu) pu hv
  exact hresolve w s (part_keeps (writePart_keeps hexec pv) pv hw)

/-- What every operation keeps, and sampling, tracking, resolving and closing keep too, every step of either variant keeps. -/
theorem step_keeps (hsample : ∀ s, P s → P s.sample) (htrack : ∀ s, P s → P s.trackReset)
    (hresolve : ∀ s old, P s → P (s.resolveStage1 old)) (hclose : ∀ s pre, P s → P (s.close pre))
    {s t : State} (hs : P s) (h : step s = .next t) : P t := by
  obtain ⟨u, hu, rfl⟩ := step_eq_next.1 h
  refine hclose u _ ?_
  unfold cycle at hu
  split at hu
  · obtain ⟨-, hdomains⟩ := cycleAsync_eq_next.1 hu
    exact clockDomains_keeps hexec hresolve (htrack _ (hsample s hs)) hdomains
  · exact cycleSync_keeps hexec (hsample s hs) hu

end

/-! ### One operation -/

/-- From `s` to `t` the build stayed, and the storage stayed or one entry below DEPTH was written. -/
def TouchesStorage (s t : State) : Prop :=
  t.cfg = s.cfg ∧ (t.mem = s.mem ∨ ∃ i v, i < s.cfg.depth ∧ t.mem = Memory.write s.mem i v)

theorem touchesStorage_of_keeps {s t u : State} (h : (.next u : Result) = .next t) (hcfg : u.cfg = s.cfg)
    (hmem : u.mem = s.mem) : TouchesStorage s t := by
  cases h
  exact ⟨hcfg, .inl hmem⟩

/-- An operation behind a guard answers only if the index is an entry, and then with its update. -/
theorem guarded_eq_next {i : Nat} {s t : State} {k : State → Result}
    (h : andThen (guardEntry i s) k = .next t) : i < s.cfg.depth ∧ k s = .next t := by
  obtain ⟨u, hu, hk⟩ := andThen_eq_next.1 h
  obtain ⟨hi, rfl⟩ := guardEntry_eq_next.1 hu
  exact ⟨hi, hk⟩

theorem touchesStorage_of_write {s t u : State} {i : Nat} (hi : i < s.cfg.depth) (h : (.next u : Result) = .next t)
    (hcfg : u.cfg = s.cfg) {v : Byte} (hmem : u.mem = Memory.write s.mem i v) : TouchesStorage s t := by
  cases h
  exact ⟨hcfg, .inr ⟨i, v, hi, hmem⟩⟩

/-- What an operation can do to the build and the storage: FIFO_PUSH, FIFO_PUSH_POP, FIFO_PUSH_POPMISS and W_PUSH write an entry
that exists, and every other operation leaves both. -/
theorem exec_touches {i : Instr} {s t : State} (h : exec i s = .next t) : TouchesStorage s t := by
  cases i
  case fifoImpossible => cases h
  case fifoPush =>
    obtain ⟨hi, hk⟩ := guarded_eq_next h
    exact touchesStorage_of_write hi hk rfl rfl
  case fifoPushPop =>
    obtain ⟨-, h⟩ := guarded_eq_next h
    obtain ⟨hi, hk⟩ := guarded_eq_next h
    exact touchesStorage_of_write hi hk rfl rfl
  case fifoPushPopMiss =>
    obtain ⟨hi, hk⟩ := guarded_eq_next h
    exact touchesStorage_of_write hi hk rfl rfl
  case wPush =>
    obtain ⟨hi, hk⟩ := guarded_eq_next h
    exact touchesStorage_of_write hi hk rfl rfl
  case fifoPop => exact touchesStorage_of_keeps (guarded_eq_next h).2 rfl rfl
  case fifoDropPop => exact touchesStorage_of_keeps (guarded_eq_next h).2 rfl rfl
  case rPop => exact touchesStorage_of_keeps (guarded_eq_next h).2 rfl rfl
  case reset evt dat deq =>
    obtain ⟨hmem, -, ⟨hcfg, -⟩, -⟩ := reset_effect (evt := evt) (dat := dat) (deq := deq) h
    exact ⟨hcfg, .inl hmem⟩
  all_goals exact touchesStorage_of_keeps h rfl rfl

theorem TouchesStorage.keeps_inv {s t : State} (h : TouchesStorage s t) (hi : s.StorageInv) : t.StorageInv := by
  obtain ⟨hcfg, hmem⟩ := h
  obtain ⟨hwf, hbelow⟩ := hi
  unfold State.StorageInv
  rcases hmem with hmem | ⟨i, v, hi, hmem⟩
  · rw [hmem, hcfg]
    exact ⟨hwf, hbelow⟩
  · rw [hmem, hcfg]
    exact ⟨Memory.wf_write i v hwf, Memory.write_below hi hbelow⟩

/-! ### The statements -/

/-- No operation writes the build, and so no step does. -/
theorem step_cfg {s t : State} (h : step s = .next t) : t.cfg = s.cfg := by
  refine step_keeps (P := fun u => u.cfg = s.cfg) (fun i u v hu hv => ?_) (fun _ hu => hu) (fun _ hu => hu)
    (fun _ _ hu => hu) (fun _ _ hu => hu) rfl h
  obtain ⟨hcfg, -⟩ := exec_touches hv
  exact hcfg.trans hu

/-- Settles O38, by `step_cfg`. -/
theorem stepKeepsTheBuildParameters : Obligations.StepKeepsTheBuildParameters := fun _ _ => step_cfg

/-- Settles O34: a write below DEPTH keeps the storage's form, and the rest of a step does not touch it. -/
theorem stepKeepsTheStorageForm : Obligations.StepKeepsTheStorageForm := by
  intro s t hs h
  exact step_keeps (fun _ _ _ hu hv => (exec_touches hv).keeps_inv hu) (fun _ hu => hu) (fun _ hu => hu)
    (fun _ _ hu => hu) (fun _ _ hu => hu) hs h

/-- An operation behind a guard faults at an index that is no entry. -/
theorem guarded_fault {i : Nat} {s : State} (k : State → Result) (h : s.cfg.depth ≤ i) :
    andThen (guardEntry i s) k = .fault (.noSuchEntry i) := by
  rw [guardEntry_of_le h, andThen_fault]

/-- Settles O42: each of the seven operations guards its index before it reads or writes the storage. -/
theorem accessBeyondTheStorageFaults : Obligations.AccessBeyondTheStorageFaults := by
  intro s
  refine ⟨fun htail => ⟨fun empty => guarded_fault _ htail, guarded_fault _ htail, fun hhead => ?_⟩,
    fun hhead => ⟨fun full => guarded_fault _ hhead, guarded_fault _ hhead, guarded_fault _ hhead⟩,
    fun hw => guarded_fault _ hw, fun hr => guarded_fault _ hr⟩
  calc exec .fifoPushPop s
      = andThen (guardEntry s.head s) fun t =>
          andThen (guardEntry t.tail t) fun u => .next u.hitSync.acceptSync := rfl
    _ = .fault (.noSuchEntry s.tail) := by rw [guardEntry_of_lt hhead, andThen_next, guarded_fault _ htail]

end Sys2Proof.Machine

/-! ## Proofs: the FIFO as a queue, and the cycles of ASYNC = 0 (10_state.md R31, R38; 41_fifo.md R140 to R146; 20_memory.md R57)

In either variant the bytes held are a window of a ring of storage entries. `ring_step` says what becomes of the window when its
start and its length move as a FIFO's pointers do and the entry behind it is written. -/

namespace Sys2Proof.Machine

/-! ### A window of a ring -/

/-- The `n` entries from entry `start` on of a ring of `size` entries. -/
def ring (read : Nat → Byte) (size start n : Nat) : List Byte :=
  (List.range n).map fun i => read ((start + i) % size)

@[simp] theorem length_ring (read : Nat → Byte) (size start n : Nat) : (ring read size start n).length = n := by
  simp [ring]

/-- A window one longer has one entry more behind it. -/
theorem ring_succ (read : Nat → Byte) (size start n : Nat) :
    ring read size start (n + 1) = ring read size start n ++ [read ((start + n) % size)] := by
  simp [ring, List.range_succ]

/-- A window that is not empty is its first entry and the window behind it. -/
theorem ring_eq_cons (read : Nat → Byte) (size start n : Nat) :
    ring read size start (n + 1) = read (start % size) :: ring read size (start + 1) n := by
  simp [ring, List.range_succ_eq_map, Function.comp_def, Nat.add_assoc, Nat.add_comm 1]

/-- Only the start's place in the ring matters. -/
theorem ring_congr_start {read : Nat → Byte} {size a b : Nat} (n : Nat) (h : a % size = b % size) :
    ring read size a n = ring read size b n := by
  refine List.map_congr_left fun _ _ => ?_
  rw [Nat.add_mod a, h, ← Nat.add_mod]

/-- The entry behind a window that does not fill the ring is none of the window's. -/
theorem ring_index_ne {size start n i : Nat} (hi : i < n) (hn : n < size) : (start + i) % size ≠ (start + n) % size := by
  intro h
  have hmod : i % size = n % size := Nat.ModEq.add_left_cancel' start h
  rw [Nat.mod_eq_of_lt (by omega), Nat.mod_eq_of_lt hn] at hmod
  omega

/-- Writing the entry behind a window leaves the window. -/
theorem ring_congr_read {read read' : Nat → Byte} {size start n : Nat} (hn : n < size)
    (hread : ∀ x, x ≠ (start + n) % size → read' x = read x) : ring read' size start n = ring read size start n :=
  List.map_congr_left fun _ hi => hread _ (ring_index_ne (List.mem_range.1 hi) hn)

/-- A window moves as a queue: a hit takes its first entry, and an accepted byte, written behind it, becomes its last. -/
theorem ring_step {read read' : Nat → Byte} {size a a' n n' : Nat} {v : Byte} {hit accOk : Bool}
    (hhit : hit = true → n ≠ 0) (hroom : accOk = true → n < size) (ha : a' % size = (a + hit.toNat) % size)
    (hn : n' + hit.toNat = n + accOk.toNat)
    (hread : ∀ x, read' x = if accOk = true ∧ x = (a + n) % size then v else read x) :
    ring read' size a' n' =
      (if hit then (ring read size a n).tail else ring read size a n) ++ (if accOk then [v] else []) := by
  have hput : ring read' size a (n + accOk.toNat) = ring read size a n ++ (if accOk then [v] else []) := by
    cases accOk
    · have hsame : read' = read := funext fun x => by simp [hread]
      simp [hsame]
    · have hkept : ring read' size a n = ring read size a n :=
        ring_congr_read (hroom rfl) fun x hx => by simp [hread, hx]
      simp [ring_succ, hkept, hread]
  rw [ring_congr_start n' ha]
  cases hit
  · simpa [← hput] using congrArg (ring read' size a) hn
  · obtain ⟨m, rfl⟩ := Nat.exists_eq_succ_of_ne_zero (hhit rfl)
    have hn' : m.succ + accOk.toNat = n' + 1 := hn.symm
    rw [hn', ring_eq_cons read', ring_eq_cons read, List.cons_append] at hput
    simpa [ring_eq_cons read] using List.tail_eq_of_cons_eq hput

/-- The first entry of a window that is not empty. -/
theorem head?_ring (read : Nat → Byte) (size start : Nat) {n : Nat} (h : n ≠ 0) :
    (ring read size start n).head? = some (read (start % size)) := by
  obtain ⟨m, rfl⟩ := Nat.exists_eq_succ_of_ne_zero h
  simp [ring_eq_cons]

/-- What the outcomes of a cycle make of the bytes held, by the cycle's hit and accepted-enqueue bits. -/
theorem queueAfter_of_bits (held : List Byte) (hit miss accOk drop : Bool) (x v w : Byte) :
    queueAfter held (if hit then .hit x else if miss then .miss else .none)
      (if accOk then .accept v else if drop then .drop w else .none) =
      (if hit then held.tail else held) ++ (if accOk then [v] else []) := by
  unfold queueAfter
  congr 1
  · cases hit <;> cases miss <;> rfl
  · cases accOk <;> cases drop <;> rfl

/-! ### Legal pointers of ASYNC = 0 (R31) -/

theorem held_eq_ring (s : State) : s.held = ring s.memRead s.cfg.depth s.head s.count := rfl

/-- A pointer that advances or stays is in range. -/
theorem moved_lt {depth x : Nat} (h : x < depth) (moves : Bool) : (if moves then advance depth x else x) < depth := by
  cases moves
  · exact h
  · exact advance_lt (Nat.zero_lt_of_lt h)

/-- A pointer that advances or stays, as its place in the ring. -/
theorem moved_mod (depth x : Nat) (moves : Bool) :
    (if moves then advance depth x else x) % depth = (x + moves.toNat) % depth := by
  cases moves <;> simp [advance]

/-- A cycle's hit takes a byte that is there, and its accepted byte has room. -/
theorem nextHit_count {s : State} (h : s.nextHit = true) : s.count ≠ 0 :=
  bne_iff_ne.1 (Bool.and_eq_true_iff.1 h).2

theorem nextAccOk_room {s : State} (h : s.nextAccOk = true) (hle : s.count ≤ s.cfg.depth) : s.count < s.cfg.depth :=
  Nat.lt_of_le_of_ne hle (bne_iff_ne.1 (Bool.and_eq_true_iff.1 h).2)

/-- A cycle without reset keeps legal pointers legal. -/
theorem SyncRunCycle.keeps_syncInv {s t : State} {r : CycleRecord} (h : SyncRunCycle s t r) (hcfg : t.cfg = s.cfg)
    (hi : s.SyncInv) : t.SyncInv := by
  obtain ⟨hhead, htail, hle, hplace⟩ := hi
  have hcount := h.count hle
  unfold State.SyncInv
  rw [hcfg, h.head, h.tail]
  refine ⟨moved_lt hhead _, moved_lt htail _, ?_, ?_⟩
  · cases ho : s.nextAccOk
    · simp only [ho, Bool.toNat_false] at hcount
      omega
    · have := nextAccOk_room ho hle
      simp only [ho, Bool.toNat_true] at hcount
      omega
  · calc (if s.nextAccOk then advance s.cfg.depth s.tail else s.tail)
        = (s.tail + s.nextAccOk.toNat) % s.cfg.depth := by rw [← moved_mod, Nat.mod_eq_of_lt (moved_lt htail _)]
      _ = (s.head + s.nextHit.toNat + t.count) % s.cfg.depth := by
        rw [hplace, Nat.mod_add_mod]
        congr 1
        omega
      _ = ((if s.nextHit then advance s.cfg.depth s.head else s.head) + t.count) % s.cfg.depth := by
        rw [Nat.add_mod, ← moved_mod, ← Nat.add_mod]

/-- Settles O35: RESET puts the pointers at 0, and a cycle without reset moves them as `count` counts. -/
theorem stepKeepsTheFifoInvariants : Obligations.StepKeepsTheFifoInvariants := by
  intro s t ha hi ht
  obtain ⟨r, -, -, hreset, hrun⟩ := syncStep_record ha ht
  cases hr : s.nextInput.rst
  · exact (hrun hr).keeps_syncInv (step_cfg ht) hi
  · obtain ⟨hhead, htail, hcount⟩ := (hreset hr).fifo
    obtain ⟨hpos, -⟩ := hi
    have hdepth : 0 < t.cfg.depth := by
      rw [step_cfg ht]
      omega
    simp [State.SyncInv, hhead, htail, hcount, hdepth]

/-- A cycle without reset makes of the bytes held what its outcomes say. -/
theorem SyncRunCycle.held {s t : State} {r : CycleRecord} (h : SyncRunCycle s t r) (hcfg : t.cfg = s.cfg)
    (hi : s.SyncInv) : t.held = queueAfter s.held r.cons r.prod := by
  obtain ⟨-, -, hle, hplace⟩ := hi
  rw [h.cons, h.prod, queueAfter_of_bits, held_eq_ring, held_eq_ring, hcfg]
  refine ring_step nextHit_count (fun ho => nextAccOk_room ho hle) ?_ (h.count hle) fun x => ?_
  · rw [h.head, moved_mod]
  · rw [h.storage, hplace]

theorem SyncRunCycle.hit_iff {s t : State} {r : CycleRecord} (h : SyncRunCycle s t r) {v : Byte} :
    r.cons = .hit v ↔ s.nextHit = true ∧ s.memRead s.head = v := by
  rw [h.cons]
  cases s.nextHit <;> cases s.nextInput.deq <;> simp

theorem SyncRunCycle.accept_iff {s t : State} {r : CycleRecord} (h : SyncRunCycle s t r) {v : Byte} :
    r.prod = .accept v ↔ s.nextAccOk = true ∧ s.nextPush = some v := by
  rw [h.prod]
  by_cases hf : s.count = s.cfg.depth <;> cases hp : s.nextPush <;> simp [State.nextAccOk, State.nextDrop, hp, hf]

theorem SyncRunCycle.drop_iff {s t : State} {r : CycleRecord} (h : SyncRunCycle s t r) {v : Byte} :
    r.prod = .drop v ↔ s.count = s.cfg.depth ∧ s.nextPush = some v := by
  rw [h.prod]
  by_cases hf : s.count = s.cfg.depth <;> cases hp : s.nextPush <;> simp [State.nextAccOk, State.nextDrop, hp, hf]

/-- Settles O50: the bytes held are a window of the storage's ring, and each outcome says what its bit did to it. -/
theorem syncFifoIsABoundedQueue : Obligations.SyncFifoIsABoundedQueue := by
  intro s t ha hi ht
  obtain ⟨r, htrace, -, hreset, hrun⟩ := syncStep_record ha ht
  refine ⟨r, htrace, fun hr => ?_, fun hr => ?_⟩
  · obtain ⟨-, -, hcount⟩ := (hreset hr).fifo
    simp [State.held, hcount]
  · have h := hrun hr
    obtain ⟨-, -, hbound, -⟩ := h.keeps_syncInv (step_cfg ht) hi
    have hheld := h.held (step_cfg ht) hi
    obtain ⟨hhead, -, hle, -⟩ := hi
    refine ⟨hheld, ?_, fun v hv => ?_, fun v hv => ?_, fun v hv => ?_⟩
    · rwa [held_eq_ring, length_ring, ← step_cfg ht]
    · obtain ⟨hhit, rfl⟩ := h.hit_iff.1 hv
      rw [held_eq_ring, head?_ring _ _ _ (nextHit_count hhit), Nat.mod_eq_of_lt hhead]
    · obtain ⟨ho, hpush⟩ := h.accept_iff.1 hv
      exact ⟨by simpa [held_eq_ring] using nextAccOk_room ho hle, (h.frameOk v).2 hpush⟩
    · obtain ⟨hfull, hpush⟩ := h.drop_iff.1 hv
      exact ⟨by simpa [held_eq_ring] using hfull, (h.frameOk v).2 hpush⟩

/-- Settles O39, by `syncStep_goes`. -/
theorem legalSyncStateNeverStops : Obligations.LegalSyncStateNeverStops := fun _ => syncStep_goes

/-! ### A pending BLOCKING_DEQ (R83, R144) -/

/-- A step of ASYNC = 0 leaves of the stimulus what remains by the `rd_valid` it records. -/
theorem syncStep_blockingDeq {s t : State} {r : CycleRecord} {rest : List Pending} (ha : s.cfg.async = false)
    (hin : s.inputs = .blockingDeq :: rest) (h : step s = .next t) (htrace : t.trace = r :: s.trace) :
    t.inputs = if r.rdValid then rest else .blockingDeq :: rest := by
  obtain ⟨u, ⟨-, -, -, hu, -⟩, rfl⟩ := syncStep_close ha h
  rw [close_trace] at htrace
  obtain ⟨rfl, -⟩ := List.cons_eq_cons.1 htrace
  change u.remaining = if u.sig.rdValid then rest else .blockingDeq :: rest
  simp [State.remaining, hu, hin]

/-- Settles O58: BLOCKING_DEQ asks with `deq` = 1, so its cycle hits exactly if a byte is held, and what remains follows the hit. -/
theorem blockingDeqWaitsForAByte : Obligations.BlockingDeqWaitsForAByte := by
  intro s rest ha hi hin
  have hnext : s.nextInput = deqOnly := by simp [State.nextInput, hin]
  obtain ⟨t, ht⟩ := syncStep_goes ha hi
  obtain ⟨r, htrace, hshows, -, hrun⟩ := syncStep_record ha ht
  have h := hrun (by rw [hnext]; rfl)
  have hinputs := syncStep_blockingDeq ha hin ht htrace
  have hpush : s.nextPush = none := by simp [State.nextPush, State.nextDecoder, hnext, deqOnly]
  have hacc : s.nextAccOk = false := by simp [State.nextAccOk, hpush]
  obtain ⟨-, -, hle, -⟩ := hi
  refine ⟨t, r, ht, htrace, fun h0 => ?_, fun h0 => ?_⟩
  · have hhit : s.nextHit = false := by simp [State.nextHit, h0]
    rw [h.rdValid, hhit] at hinputs
    exact ⟨hinputs, ⟨by simp [h.head, hhit], by simp [h.tail, hacc], h.count_kept hacc hhit⟩, h.rdValid.trans hhit⟩
  · have hhit : s.nextHit = true := by simp [State.nextHit, h0, hnext, deqOnly]
    have hcount := h.count hle
    rw [h.rdValid, hhit] at hinputs
    rw [hhit, hacc] at hcount
    exact ⟨hinputs, by simp [h.head, hhit, advance], hcount, h.rdValid.trans hhit, hshows.rdData h0⟩

/-! ### The producer and the consumer's input (R140, D8) -/

/-- Settles O56: what the decoder pushes and whether the FIFO takes it are fixed before `deq` is looked at. -/
theorem producerIgnoresTheConsumer : Obligations.ProducerIgnoresTheConsumer := by
  intro s t₁ t₂ i rest ha h₁ h₂
  obtain ⟨r₁, htrace₁, -, hreset₁, hrun₁⟩ := syncStep_record (by exact ha) h₁
  obtain ⟨r₂, htrace₂, -, hreset₂, hrun₂⟩ := syncStep_record (by exact ha) h₂
  cases hr : i.rst
  · have c₁ := hrun₁ hr
    have c₂ := hrun₂ hr
    exact ⟨c₁.tail.trans c₂.tail.symm, c₁.dropCnt.trans c₂.dropCnt.symm,
      fun a => (c₂.storage a).trans (c₁.storage a).symm,
      ⟨c₂.p.trans c₁.p.symm, c₂.acc.trans c₁.acc.symm, c₂.ones.trans c₁.ones.symm, c₂.ack.trans c₁.ack.symm⟩,
      r₁, r₂, htrace₁, htrace₂, c₁.prod.trans c₂.prod.symm⟩
  · have c₁ := hreset₁ hr
    have c₂ := hreset₂ hr
    obtain ⟨-, htail₁, -⟩ := c₁.fifo
    obtain ⟨-, htail₂, -⟩ := c₂.fifo
    obtain ⟨hp₁, hacc₁, hones₁, hack₁⟩ := c₁.decoder
    obtain ⟨hp₂, hacc₂, hones₂, hack₂⟩ := c₂.decoder
    obtain ⟨-, hprod₁, -⟩ := c₁.labels
    obtain ⟨-, hprod₂, -⟩ := c₂.labels
    exact ⟨htail₁.trans htail₂.symm, c₁.dropCnt.trans c₂.dropCnt.symm,
      fun a => (c₂.storage a).trans (c₁.storage a).symm,
      ⟨hp₂.trans hp₁.symm, hacc₂.trans hacc₁.symm, hones₂.trans hones₁.symm, hack₂.trans hack₁.symm⟩,
      r₁, r₂, htrace₁, htrace₂, hprod₁.trans hprod₂.symm⟩

/-! ### What a step runs (R38), and the decoder's outcome (R39, R63) -/

theorem execWord_of_decode {f : Format} {w : Byte} {i : Instr} (h : Sys2Proof.decode f w = .ok i) (s : State) :
    execWord f w s = exec i s := by
  simp [execWord, h]

/-- The decoder's part is the operation its DEW decodes to, or DEC_HOLD. -/
theorem decoderPart_of_decode {s : State} {i : Instr}
    (h : if s.takesStep then Sys2Proof.decode .dew s.dewOf = .ok i else i = .decHold) : decoderPart s = exec i s := by
  unfold decoderPart
  split at h
  · rw [if_pos ‹_›, execWord_of_decode h]
  · rw [if_neg ‹_›, h]
    rfl

/-- A step of ASYNC = 0 without reset, as its two parts and the closing. -/
theorem syncStep_of_run {s : State} (ha : s.cfg.async = false) (hr : s.nextInput.rst = false) :
    step s = andThen (andThen (decoderPart s.sample) fun t => execWord .fow t.fowOf t)
      (fun u => .next (u.close s.sample)) := by
  have hrst : ¬ s.sample.sig.inp.rst = true := by simp [hr]
  rw [step, clockEdge, cycle, if_neg (by simp [ha]), cycleSync, if_neg hrst]

/-- Settles O29, by `syncStep_of_run`. -/
theorem syncStepRunsTheDecodedOperations : Obligations.SyncStepRunsTheDecodedOperations := by
  intro s i j t ha hr hi ht hj
  rw [syncStep_of_run ha hr, decoderPart_of_decode (s := s.sample) hi, ht, andThen_next, execWord_of_decode hj]

/-- The outcome label of a decoder operation depends on `p` and `acc` alone. -/
theorem exec_dec_congr {i : Instr} (hf : formatOf i = .dew ∨ formatOf i = .noWord) {s₁ s₂ t₁ t₂ : State}
    (hp : s₂.p = s₁.p) (hacc : s₂.acc = s₁.acc) (h₁ : exec i s₁ = .next t₁) (h₂ : exec i s₂ = .next t₂) :
    t₁.sig.dec = t₂.sig.dec := by
  cases i
  case decParBadE | decParBadO | decStopOk | decStopBad =>
    cases h₁
    cases h₂
    simp [State.resync, hacc]
  case decRecoverB | decRecoverC =>
    cases h₁
    cases h₂
    simp [State.resync, hp]
  case decIdle | decStart | decData0 | decData1 | decData2 | decData3 | decData4 | decData5 | decData6 | decData7 |
      decParOkE | decParOkO | decHold =>
    cases h₁
    cases h₂
    rfl
  all_goals simp [formatOf] at hf

/-- The decoder's part is the same operation in any state with the same decoder registers, `evt` and `dat`. -/
theorem decoderPart_of_keeps {s t : State} {i : Instr} (hd : KeepsDecoder s t)
    (hevt : t.sig.inp.evt = s.sig.inp.evt) (hdat : t.sig.inp.dat = s.sig.inp.dat)
    (h : if s.takesStep then Sys2Proof.decode .dew s.dewOf = .ok i else i = .decHold) : decoderPart t = exec i t := by
  obtain ⟨hp, -, hones, hack⟩ := hd
  have htakes : t.takesStep = s.takesStep := by rw [State.takesStep, State.takesStep, hevt, hack]
  have hword : t.dewOf = s.dewOf := by rw [State.dewOf, State.dewOf, hp, hones, hdat]
  exact decoderPart_of_decode (by rwa [htakes, hword])

/-- Every state selects some decoder operation. -/
theorem decoderPart_operation (s : State) : ∃ i, (formatOf i = .dew ∨ formatOf i = .noWord) ∧
    if s.takesStep then Sys2Proof.decode .dew s.dewOf = .ok i else i = .decHold := by
  by_cases hstep : s.takesStep = true
  · obtain ⟨u, hu, -⟩ := decoderStep_spec s s.sig.inp.dat
    cases hd : Sys2Proof.decode .dew s.dewOf with
    | error e =>
      rw [decoderStep, execWord, show dewWord s.p _ _ = s.dewOf from rfl, hd] at hu
      cases hu
    | ok i =>
      obtain ⟨-, hformat, -⟩ := isReadingOf_of_dew hd
      exact ⟨i, .inl hformat, by rw [if_pos hstep]⟩
  · exact ⟨.decHold, .inr rfl, by rw [if_neg hstep]⟩

/-- A step of ASYNC = 0 without reset records the decoder's outcome of its cycle. -/
theorem syncStep_dec {s t : State} {r : CycleRecord} (ha : s.cfg.async = false) (hr : s.nextInput.rst = false)
    (h : step s = .next t) (htrace : t.trace = r :: s.trace) :
    ∃ u, decoderPart s.sample = .next u ∧ r.dec = u.sig.dec := by
  rw [syncStep_of_run ha hr] at h
  obtain ⟨v, hv, hclose⟩ := andThen_eq_next.1 h
  obtain ⟨u, hu, hfifo⟩ := andThen_eq_next.1 hv
  obtain ⟨-, -, -, -, -, -, -, -, -, -, -, ⟨-, -, hdec⟩, -⟩ := fifo_effect hfifo
  cases hclose
  rw [close_trace] at htrace
  obtain ⟨rfl, -⟩ := List.cons_eq_cons.1 htrace
  exact ⟨u, hu, hdec⟩

theorem nextDecoder_congr {s₁ s₂ : State} (hd : KeepsDecoder s₁ s₂) (hevt : s₂.nextInput.evt = s₁.nextInput.evt)
    (hdat : s₂.nextInput.dat = s₁.nextInput.dat) : s₂.nextDecoder = s₁.nextDecoder := by
  obtain ⟨hp, hacc, hones, hack⟩ := hd
  rw [State.nextDecoder, State.nextDecoder, hp, hacc, hones, hack, hevt, hdat]

/-- Settles O55: both cycles are RESET's, or both run the same decoder operation on the same decoder registers. -/
theorem decoderIgnoresFifoAndConsumer : Obligations.DecoderIgnoresFifoAndConsumer := by
  intro s₁ s₂ t₁ t₂ ha₁ ha₂ hd hrst hevt hdat h₁ h₂
  obtain ⟨r₁, htrace₁, -, hreset₁, hrun₁⟩ := syncStep_record ha₁ h₁
  obtain ⟨r₂, htrace₂, -, hreset₂, hrun₂⟩ := syncStep_record ha₂ h₂
  cases hr : s₁.nextInput.rst
  · have c₁ := hrun₁ hr
    have c₂ := hrun₂ (hrst.trans hr)
    have hnext := nextDecoder_congr hd hevt hdat
    obtain ⟨i, hi, hword⟩ := decoderPart_operation s₁.sample
    obtain ⟨u₁, hu₁, hdec₁⟩ := syncStep_dec ha₁ hr h₁ htrace₁
    obtain ⟨u₂, hu₂, hdec₂⟩ := syncStep_dec ha₂ (hrst.trans hr) h₂ htrace₂
    rw [decoderPart_of_decode hword] at hu₁
    rw [decoderPart_of_keeps (s := s₁.sample) (t := s₂.sample) hd hevt hdat hword] at hu₂
    obtain ⟨hp, hacc, -, -⟩ := hd
    have hdec := exec_dec_congr hi (s₁ := s₁.sample) (s₂ := s₂.sample) hp hacc hu₁ hu₂
    refine ⟨⟨?_, ?_, ?_, ?_⟩, r₁, r₂, htrace₁, htrace₂, by rw [hdec₁, hdec, hdec₂]⟩
    · rw [c₂.p, hnext, c₁.p]
    · rw [c₂.acc, hnext, c₁.acc]
    · rw [c₂.ones, hnext, c₁.ones]
    · rw [c₂.ack, hevt, c₁.ack]
  · have c₁ := hreset₁ hr
    have c₂ := hreset₂ (hrst.trans hr)
    obtain ⟨hp₁, hacc₁, hones₁, hack₁⟩ := c₁.decoder
    obtain ⟨hp₂, hacc₂, hones₂, hack₂⟩ := c₂.decoder
    obtain ⟨hdec₁, -⟩ := c₁.labels
    obtain ⟨hdec₂, -⟩ := c₂.labels
    exact ⟨⟨hp₂.trans hp₁.symm, hacc₂.trans hacc₁.symm, hones₂.trans hones₁.symm, hack₂.trans hack₁.symm⟩,
      r₁, r₂, htrace₁, htrace₂, hdec₁.trans hdec₂.symm⟩

end Sys2Proof.Machine

/-! ## Proofs: `ones[3:1]` influences nothing but itself (10_state.md R23)

Two results are `OnesApart` if they stop alike, or answer states that differ in `ones` alone and agree in `ones[0]`. Every operation
takes such a pair of states to such a pair of results, and a step is put together from operations by means that keep this. -/

namespace Sys2Proof.Machine

/-- The state with another count of ones. -/
def State.withOnes (s : State) (o : Nibble) : State := { s with ones := o }

/-- The results stop alike, or answer states that differ in `ones` alone and agree in `ones[0]`. -/
inductive OnesApart : Result → Result → Prop where
  | next (t : State) (o : Nibble) (h : o.getLsbD 0 = t.ones.getLsbD 0) : OnesApart (.next t) (.next (t.withOnes o))
  | fault (f : Fault) : OnesApart (.fault f) (.fault f)
  | refused (e : Refusal) : OnesApart (.refused e) (.refused e)

/-- A part of a step that takes states apart in `ones[3:1]` alone to results apart in `ones[3:1]` alone. -/
def IgnoresOnes (k : State → Result) : Prop :=
  ∀ s o, o.getLsbD 0 = s.ones.getLsbD 0 → OnesApart (k s) (k (s.withOnes o))

/-! ### How parts that ignore `ones[3:1]` are put together -/

/-- An update that leaves `ones` and reads nothing of it. -/
theorem ignoresOnes_update {f : State → State} (hf : ∀ s o, f (s.withOnes o) = (f s).withOnes o)
    (hones : ∀ s, (f s).ones = s.ones) : IgnoresOnes fun s => .next (f s) := by
  intro s o ho
  simp only [hf]
  exact .next (f s) o (by rw [ho, hones])

/-- An update that clears `ones` and reads nothing of it. -/
theorem ignoresOnes_clear {f : State → State} (hf : ∀ s o, f (s.withOnes o) = f s) :
    IgnoresOnes fun s => .next (f s) := by
  intro s o _
  simp only [hf]
  exact .next (f s) (f s).ones rfl

theorem ignoresOnes_refused (e : Refusal) : IgnoresOnes fun _ => .refused e := fun _ _ _ => .refused e

theorem ignoresOnes_guard {i : State → Nat} (hi : ∀ s o, i (s.withOnes o) = i s) :
    IgnoresOnes fun s => guardEntry (i s) s := by
  intro s o ho
  simp only [hi]
  rcases Nat.lt_or_ge (i s) s.cfg.depth with hlt | hge
  · rw [guardEntry_of_lt hlt, guardEntry_of_lt (s := s.withOnes o) hlt]
    exact .next s o ho
  · rw [guardEntry_of_le hge, guardEntry_of_le (s := s.withOnes o) hge]
    exact .fault _

/-- A sequence, whose second part may look at the state before the first, but for its `ones`. -/
theorem ignoresOnes_andThen {r : State → Result} {k : State → State → Result} (hr : IgnoresOnes r)
    (hk : ∀ s, IgnoresOnes (k s)) (hsame : ∀ s o, k (s.withOnes o) = k s) :
    IgnoresOnes fun s => andThen (r s) (k s) := by
  intro s o ho
  have h := hr s o ho
  simp only [hsame]
  generalize r s = a at h
  generalize r (s.withOnes o) = b at h
  cases h with
  | next t o' h' => exact hk s t o' h'
  | fault f => exact .fault f
  | refused e => exact .refused e

theorem ignoresOnes_ite {c : State → Bool} {a b : State → Result} (hc : ∀ s o, c (s.withOnes o) = c s)
    (ha : IgnoresOnes a) (hb : IgnoresOnes b) : IgnoresOnes fun s => if c s then a s else b s := by
  intro s o ho
  simp only [hc]
  split
  · exact ha s o ho
  · exact hb s o ho

/-! ### The operations -/

/-- Adding the same bit keeps two counts' last bits equal. -/
theorem lsb_add_congr {a b : Nibble} (h : a.getLsbD 0 = b.getLsbD 0) (c : Nibble) :
    (a + c).getLsbD 0 = (b + c).getLsbD 0 := by
  revert a b c
  decide

/-- A data slot adds its bit to whatever count it finds. -/
theorem ignoresOnes_absorbData (k : Nat) (dat : Bool) : IgnoresOnes fun s => .next (s.absorbData k dat).handshake :=
  fun s _ ho => .next (s.absorbData k dat).handshake _ (lsb_add_congr ho _)

/-- RESET as a sequence: with ASYNC = 1 the write domain's reset and then the read domain's, each at its own reset edge. -/
theorem execReset_eq (evt dat deq : Bool) (s : State) :
    execReset evt dat deq s =
      if s.cfg.async then
        andThen (if s.writeResets then .next s.resetWriteDomain else .next s) fun t =>
          if s.readResets then .next t.resetReadDomain else .next t
      else .next s.resetAll := by
  unfold execReset
  cases s.writeResets <;> cases s.readResets <;> rfl

theorem execReset_ignoresOnes (evt dat deq : Bool) : IgnoresOnes (execReset evt dat deq) := by
  have hkeep : IgnoresOnes fun s => .next s := ignoresOnes_update (f := id) (fun _ _ => rfl) fun _ => rfl
  have hwrite : IgnoresOnes fun s => if s.writeResets then .next s.resetWriteDomain else .next s :=
    ignoresOnes_ite (fun _ _ => rfl) (ignoresOnes_clear fun _ _ => rfl) hkeep
  have hread (c : Bool) : IgnoresOnes fun s => if c then .next s.resetReadDomain else .next s :=
    ignoresOnes_ite (fun _ _ => rfl) (ignoresOnes_update (fun _ _ => rfl) fun _ => rfl) hkeep
  rw [show execReset evt dat deq = _ from funext (execReset_eq evt dat deq)]
  exact ignoresOnes_ite (fun _ _ => rfl) (ignoresOnes_andThen hwrite (fun s => hread s.readResets) fun _ _ => rfl)
    (ignoresOnes_clear fun _ _ => rfl)

theorem exec_ignoresOnes (i : Instr) : IgnoresOnes (exec i) := by
  cases i
  case decData0 _ dat => exact ignoresOnes_absorbData 0 dat
  case decData1 _ dat => exact ignoresOnes_absorbData 1 dat
  case decData2 _ dat => exact ignoresOnes_absorbData 2 dat
  case decData3 _ dat => exact ignoresOnes_absorbData 3 dat
  case decData4 _ dat => exact ignoresOnes_absorbData 4 dat
  case decData5 _ dat => exact ignoresOnes_absorbData 5 dat
  case decData6 _ dat => exact ignoresOnes_absorbData 6 dat
  case decData7 _ dat => exact ignoresOnes_absorbData 7 dat
  case decParBadE | decParBadO | decStopOk | decStopBad | decRecoverB | decRecoverC =>
    exact ignoresOnes_clear fun _ _ => rfl
  case fifoImpossible => exact ignoresOnes_refused .fullAndEmpty
  case fifoPush | fifoPop | fifoPushPopMiss | fifoDropPop | wPush | rPop =>
    exact ignoresOnes_andThen (ignoresOnes_guard fun _ _ => rfl)
      (fun _ => ignoresOnes_update (fun _ _ => rfl) fun _ => rfl) fun _ _ => rfl
  case fifoPushPop =>
    refine ignoresOnes_andThen (ignoresOnes_guard fun _ _ => rfl) (fun _ => ?_) fun _ _ => rfl
    exact ignoresOnes_andThen (ignoresOnes_guard fun _ _ => rfl)
      (fun _ => ignoresOnes_update (fun _ _ => rfl) fun _ => rfl) fun _ _ => rfl
  case reset evt dat deq => exact execReset_ignoresOnes evt dat deq
  case decIdle | decStart | decParOkE | decParOkO | decHold | fifoIdle | fifoPushDrop | fifoPopMiss | wIdle | wDrop |
      rIdle | rMiss =>
    exact ignoresOnes_update (fun _ _ => rfl) fun _ => rfl

/-! ### The step -/

/-- A word formed without `ones[3:1]` selects the same operation in both states. -/
theorem ignoresOnes_word {f : Format} {w : State → Byte}
    (hw : ∀ s o, o.getLsbD 0 = s.ones.getLsbD 0 → w (s.withOnes o) = w s) : IgnoresOnes fun s => execWord f (w s) s := by
  intro s o ho
  simp only [hw s o ho, execWord]
  split
  · exact exec_ignoresOnes _ s o ho
  · exact .refused _

/-- The DEW holds `ones[0]` alone of `ones`. -/
theorem dewOf_withOnes {s : State} {o : Nibble} (ho : o.getLsbD 0 = s.ones.getLsbD 0) :
    (s.withOnes o).dewOf = s.dewOf := by
  change dewWord s.p (o.getLsbD 0) s.sig.inp.dat = _
  rw [ho]
  rfl

theorem decoderPart_ignoresOnes : IgnoresOnes decoderPart :=
  ignoresOnes_ite (fun _ _ => rfl) (ignoresOnes_word fun _ _ => dewOf_withOnes) (ignoresOnes_word fun _ _ _ => rfl)

theorem cycleSync_ignoresOnes : IgnoresOnes cycleSync :=
  ignoresOnes_ite (fun _ _ => rfl) (ignoresOnes_word fun _ _ _ => rfl)
    (ignoresOnes_andThen decoderPart_ignoresOnes (fun _ => ignoresOnes_word fun _ _ _ => rfl) fun _ _ => rfl)

theorem resetPart_ignoresOnes : IgnoresOnes resetPart :=
  ignoresOnes_ite (fun _ _ => rfl) (ignoresOnes_word fun _ _ _ => rfl) (ignoresOnes_update (fun _ _ => rfl) fun _ => rfl)

theorem readPart_ignoresOnes : IgnoresOnes readPart := ignoresOnes_word fun _ _ _ => rfl

theorem writePart_ignoresOnes : IgnoresOnes writePart :=
  ignoresOnes_andThen decoderPart_ignoresOnes (fun _ => ignoresOnes_word fun _ _ _ => rfl) fun _ _ => rfl

/-- A domain's part, run or not as the state before the edge says. -/
theorem ignoresOnes_part {part : State → Result} (c : Bool) (h : IgnoresOnes part) :
    IgnoresOnes fun t => if c then part t else .next t :=
  ignoresOnes_ite (fun _ _ => rfl) h (ignoresOnes_update (fun _ _ => rfl) fun _ => rfl)

theorem clockDomains_ignoresOnes : IgnoresOnes clockDomains := by
  refine ignoresOnes_andThen resetPart_ignoresOnes (fun s => ?_) fun _ _ => rfl
  refine ignoresOnes_andThen (ignoresOnes_part _ readPart_ignoresOnes) (fun _ => ?_) fun _ _ => rfl
  refine ignoresOnes_andThen (ignoresOnes_part _ writePart_ignoresOnes) (fun _ => ?_) fun _ _ => rfl
  exact ignoresOnes_update (fun _ _ => rfl) fun _ => rfl

theorem cycleAsync_ignoresOnes : IgnoresOnes cycleAsync := by
  intro s o ho
  have hsame : (s.withOnes o).resetRefusal = s.resetRefusal := rfl
  unfold cycleAsync
  rw [hsame]
  cases s.resetRefusal with
  | some e => exact .refused e
  | none => exact clockDomains_ignoresOnes s.trackReset o ho

theorem step_ignoresOnes : IgnoresOnes step := by
  have hcycle : IgnoresOnes cycle := ignoresOnes_ite (fun _ _ => rfl) cycleAsync_ignoresOnes cycleSync_ignoresOnes
  have hsampled : IgnoresOnes fun s => cycle s.sample := fun s o ho => hcycle s.sample o ho
  exact ignoresOnes_andThen hsampled (fun _ => ignoresOnes_update (fun _ _ => rfl) fun _ => rfl) fun _ _ => rfl

/-- Settles O57, by `step_ignoresOnes`. -/
theorem onlyTheParityOfOnesMatters : Obligations.OnlyTheParityOfOnesMatters := by
  intro s o ho
  have h : OnesApart (step s) (step { s with ones := o }) := step_ignoresOnes s o ho
  generalize step s = a at h ⊢
  generalize step { s with ones := o } = b at h ⊢
  cases h with
  | next t o' h' => exact ⟨o', h', rfl⟩
  | fault f => rfl
  | refused e => rfl

end Sys2Proof.Machine

/-! ## Proofs: an edge of ASYNC = 1 (42_fifo_async.md R160 to R174, R178)

At an edge each domain holds, is reset, or runs, by its own clock and its own reset. The effects of the parts of an edge are
composed here once, per domain, into one turn between the state before the step and the state after it (`WriteTurn`, `ReadTurn`,
`asyncStep_edge`), and each statement about a step is read off from the turns. -/

namespace Sys2Proof.Machine

/-! ### The signals of an edge, on the state before the step -/

/-- `enq && !F_w` of the next edge of `clk`. -/
def State.nextAccept (s : State) : Bool := s.nextPush.isSome && !s.fullW

/-- `deq && !E_r` of the next edge of `clk_r`. -/
def State.nextDeliver (s : State) : Bool := s.nextInput.deq && !s.emptyR

/-- The write domain has run: the decoder's part on its registers, then the FIFO's write operation (R168 to R171). -/
structure WriteRun (s t : State) : Prop where
  p : t.p = s.nextDecoder.1
  acc : t.acc = s.nextDecoder.2.1
  ones : t.ones = s.nextDecoder.2.2.1
  mem : t.mem = if s.nextAccept then Memory.write s.mem s.writeIndex (s.nextPush.getD 0) else s.mem
  wbin : t.wbin = if s.nextAccept then (s.wbin + 1) % ptrMod s.cfg.depth else s.wbin
  wgray : t.wgray = if s.nextAccept then gray ((s.wbin + 1) % ptrMod s.cfg.depth) else s.wgray
  prod : t.sig.prod =
    if s.nextAccept then .accept (s.nextPush.getD 0)
    else if s.nextPush.isSome && s.fullW then .drop (s.nextPush.getD 0) else .none
  frameOk : ∀ v, t.sig.dec = .frameOk v ↔ s.nextPush = some v

/-- The read domain has run: the FIFO's read operation (R172 to R174). -/
structure ReadRun (s t : State) : Prop where
  rbin : t.rbin = if s.nextDeliver then (s.rbin + 1) % ptrMod s.cfg.depth else s.rbin
  rgray : t.rgray = if s.nextDeliver then gray ((s.rbin + 1) % ptrMod s.cfg.depth) else s.rgray
  rdValid : t.sig.rdValid = s.nextDeliver
  cons : t.sig.cons = if s.nextDeliver then .hit (s.memRead s.readIndex) else if s.nextInput.deq then .miss else .none

/-- What an edge makes of the write domain, from `s` before the step to `t` after it. -/
inductive WriteTurn (s t : State) : Prop where
  | hold (he : risesClk s.nextInput.edge = false) (decoder : KeepsDecoder s t) (dropCnt : t.dropCnt = s.dropCnt)
      (mem : t.mem = s.mem) (side : KeepsWriteSide s t) (prod : t.sig.prod = .none)
  | reset (he : risesClk s.nextInput.edge = true) (hr : s.nextInput.rst = true) (p : t.p = 0) (acc : t.acc = 0)
      (ones : t.ones = 0) (mem : t.mem = s.mem) (side : t.WriteSideReset) (prod : t.sig.prod = .none)
  | run (he : risesClk s.nextInput.edge = true) (hr : s.nextInput.rst = false) (run : WriteRun s t)
      (rq : t.rq = shiftIn s.rgray s.rq ∨ t.rq = shiftIn t.rgray s.rq)

/-- What an edge makes of the read domain, from `s` before the step to `t` after it. -/
inductive ReadTurn (s t : State) : Prop where
  | hold (he : risesClkR s.nextInput.edge = false) (side : KeepsReadSide s t) (rdValid : t.sig.rdValid = false)
      (cons : t.sig.cons = .none)
  | reset (he : risesClkR s.nextInput.edge = true) (hr : s.nextInput.rstR = true) (side : t.ReadSideReset)
      (rdValid : t.sig.rdValid = false) (cons : t.sig.cons = .none)
  | run (he : risesClkR s.nextInput.edge = true) (hr : s.nextInput.rstR = false) (run : ReadRun s t)
      (wq : t.wq = shiftIn s.wgray s.wq ∨ t.wq = shiftIn t.wgray s.wq)

/-- What a step of ASYNC = 1 records: the outputs of the state before it (R166, R167), and the read port and the labels of the
operations it ran. -/
structure ShowsBothSides (s t : State) (r : CycleRecord) : Prop where
  ack : r.ack = s.ack
  empty : r.empty = s.emptyR
  full : r.full = s.fullW
  count : r.count = s.countR
  dropCnt : r.dropCnt = s.dropCnt
  rdData : s.emptyR = false → r.rdData = s.memRead s.readIndex
  rdValid : r.rdValid = t.sig.rdValid
  dec : r.dec = t.sig.dec
  prod : r.prod = t.sig.prod
  cons : r.cons = t.sig.cons

/-! ### What a side's view depends on -/

theorem fullW_congr {s t : State} (hcfg : t.cfg = s.cfg) (hwbin : t.wbin = s.wbin) (hrq : t.rq = s.rq) :
    t.fullW = s.fullW := by
  simp only [State.fullW, State.countW, State.rseen, hcfg, hwbin, hrq]

theorem emptyR_congr {s t : State} (hcfg : t.cfg = s.cfg) (hrbin : t.rbin = s.rbin) (hwq : t.wq = s.wq) :
    t.emptyR = s.emptyR := by
  simp only [State.emptyR, State.countR, State.wseen, hcfg, hrbin, hwq]

theorem decoderOf_eq_nextDecoder {s v : State} (hd : KeepsDecoder s v) (hinp : v.sig.inp = s.nextInput) :
    decoderOf v = s.nextDecoder := by
  obtain ⟨hp, hacc, hones, hack⟩ := hd
  rw [decoderOf, State.takesStep, State.nextDecoder, hp, hacc, hones, hack, hinp]

/-! ### What each part of an edge leaves to the other domain -/

theorem keepsWriteDomain_trans {s t u : State} (hst : KeepsWriteDomain s t) (htu : KeepsWriteDomain t u) :
    KeepsWriteDomain s u := by
  obtain ⟨⟨p, acc, ones, ack⟩, drop, ⟨wbin, wgray, rq⟩, push, dec, prod⟩ := hst
  obtain ⟨⟨p', acc', ones', ack'⟩, drop', ⟨wbin', wgray', rq'⟩, push', dec', prod'⟩ := htu
  exact ⟨⟨p'.trans p, acc'.trans acc, ones'.trans ones, ack'.trans ack⟩, drop'.trans drop,
    ⟨wbin'.trans wbin, wgray'.trans wgray, rq'.trans rq⟩, push'.trans push, dec'.trans dec, prod'.trans prod⟩

/-- The read domain's turn leaves the write domain and the storage. -/
theorem readTurn_keepsWriteDomain {s t : State} {runs hit : Bool} (h : if runs then ReadEffect s t hit else t = s) :
    KeepsWriteDomain s t ∧ t.mem = s.mem ∧ KeepsRest s t := by
  cases runs
  · obtain rfl : t = s := h
    simp [KeepsWriteDomain, KeepsDecoder, KeepsWriteSide, KeepsRest]
  · obtain ⟨-, -, -, -, -, -, hmem, hdrop, hprod, hd, ⟨hpush, -, hdec⟩, -, hside, hrest⟩ := h
    exact ⟨⟨hd, hdrop, hside, hpush, hdec, hprod⟩, hmem, hrest⟩

/-- The decoder's part leaves both sides of the FIFO, the read port and the storage. -/
theorem DecoderEffect.keepsSides {s u : State} {d : Nibble × Byte × Nibble × Option Byte} (h : DecoderEffect s u d) :
    KeepsWriteSide s u ∧ KeepsReadSide s u ∧ KeepsReadPort s u ∧ u.mem = s.mem := by
  obtain ⟨⟨-, -, -, -, -, -, -, hwrite, hread, -, -, hport, -⟩, hmem, -⟩ := h
  exact ⟨hwrite, hread, hport, hmem⟩

/-- The write domain's turn leaves the read domain. -/
theorem writeTurn_keepsReadDomain {s t : State} {runs : Bool} (h : if runs then WritePartEffect s t else t = s) :
    KeepsReadSide s t ∧ KeepsReadPort s t := by
  cases runs
  · obtain rfl : t = s := h
    simp [KeepsReadSide, KeepsReadPort]
  · obtain ⟨u, hdec, -, -, -, -, -, -, -, -, -, -, ⟨rbin, rgray, wq⟩, ⟨valid, data, cons⟩, -⟩ := h
    obtain ⟨-, ⟨urbin, urgray, uwq⟩, ⟨uvalid, udata, ucons⟩, -⟩ := hdec.keepsSides
    exact ⟨⟨rbin.trans urbin, rgray.trans urgray, wq.trans uwq⟩, valid.trans uvalid, data.trans udata, cons.trans ucons⟩

/-- The write domain's part, run on a state whose write domain is as before the step. -/
theorem WritePartEffect.writeRun {s v w : State} (h : WritePartEffect v w) (hd : KeepsDecoder s v)
    (hside : KeepsWriteSide s v) (hmem : v.mem = s.mem) (hcfg : v.cfg = s.cfg) (hinp : v.sig.inp = s.nextInput) :
    WriteRun s w ∧ w.rq = shiftIn w.rgray s.rq := by
  obtain ⟨x, hdec, -, fmem, fwbin, fwgray, frq, -, fprod, ⟨fp, facc, fones, -⟩, ⟨-, -, fdec⟩, -, ⟨-, frgray, -⟩, -⟩ := h
  rw [decoderOf_eq_nextDecoder hd hinp] at hdec
  obtain ⟨⟨xwbin, xwgray, xrq⟩, -, -, xmem⟩ := hdec.keepsSides
  obtain ⟨-, -, -, xcfg, -⟩ := hdec.keeps
  obtain ⟨xp, xacc, xones, -, xpush, xpushv⟩ := hdec.writes
  obtain ⟨-, -, -, xframe⟩ := hdec
  obtain ⟨vwbin, vwgray, vrq⟩ := hside
  have cfg := xcfg.trans hcfg
  have wbin := xwbin.trans vwbin
  have hfull : x.fullW = s.fullW := fullW_congr cfg wbin (xrq.trans vrq)
  have hindex : x.writeIndex = s.writeIndex := by rw [State.writeIndex, State.writeIndex, wbin, cfg]
  have haccept : (x.sig.push && !x.fullW) = s.nextAccept := by
    rw [xpush, hfull]
    rfl
  have hdrop : (x.sig.push && x.fullW) = (s.nextPush.isSome && s.fullW) := by
    rw [xpush, hfull]
    rfl
  have hbyte {c : Bool} (h : (s.nextPush.isSome && c) = true) : x.sig.pushv = s.nextPush.getD 0 :=
    xpushv (Bool.and_eq_true_iff.1 h).1
  rw [haccept] at fmem fwbin fwgray fprod
  refine ⟨?_, by rw [frq, frgray, xrq, vrq]⟩
  exact
    { p := fp.trans xp
      acc := facc.trans xacc
      ones := fones.trans xones
      mem := by
        cases ho : s.nextAccept
        · simp [fmem, ho, xmem, hmem]
        · simp [fmem, ho, xmem, hmem, hindex, hbyte ho]
      wbin := by rw [fwbin, wbin, cfg]
      wgray := by rw [fwgray, wbin, cfg, xwgray, vwgray]
      prod := by
        rw [fprod, hdrop]
        split
        · rw [hbyte ‹_›]
        · split
          · rw [hbyte ‹_›]
          · rfl
      frameOk := fun v => by rw [fdec]; exact xframe v }

/-- The read domain's operation, run on a state whose read domain is as before the step. -/
theorem ReadEffect.readRun {s u v : State} (h : ReadEffect u v (u.sig.inp.deq && !u.emptyR)) (hside : KeepsReadSide s u)
    (hmem : u.mem = s.mem) (hcfg : u.cfg = s.cfg) (hinp : u.sig.inp = s.nextInput) :
    ReadRun s v ∧ v.wq = shiftIn u.wgray s.wq ∧ (s.emptyR = false → v.sig.rdData = s.memRead s.readIndex) := by
  obtain ⟨frbin, frgray, fwq, fvalid, fdata, fcons, -⟩ := h
  obtain ⟨rbin, rgray, wq⟩ := hside
  have hempty : u.emptyR = s.emptyR := emptyR_congr hcfg rbin wq
  have hindex : u.readIndex = s.readIndex := by rw [State.readIndex, State.readIndex, rbin, hcfg]
  have hhead : u.memRead u.readIndex = s.memRead s.readIndex := by rw [hindex, State.memRead_congr hmem]
  have hdeliver : (u.sig.inp.deq && !u.emptyR) = s.nextDeliver := by rw [hinp, hempty]; rfl
  rw [hdeliver] at frbin frgray fvalid fcons
  rw [hempty, hhead] at fdata
  refine ⟨?_, by rw [fwq, wq], fdata⟩
  exact
    { rbin := by rw [frbin, rbin, hcfg]
      rgray := by rw [frgray, rbin, hcfg, rgray]
      rdValid := fvalid
      cons := by rw [fcons, hhead, hinp] }

/-- A domain that does not run keeps its synchroniser as it is. -/
theorem resolveStage1_rq {old : State} (s : State) (h : old.writeRuns = false) : (s.resolveStage1 old).rq = s.rq := by
  simp [State.resolveStage1, h]

theorem resolveStage1_wq {old : State} (s : State) (h : old.readRuns = false) : (s.resolveStage1 old).wq = s.wq := by
  simp [State.resolveStage1, h]

/-- A stage 1 that shifted in `x`, resolved where both clocks rise, holds the old pointer or the new one (R165). -/
theorem resolved_stage1 {both takesNew : Bool} {x new old : Nat} {q q' : List Nat} (hq : q' = shiftIn x q)
    (hx : both = false → x = old ∨ x = new) :
    (if both then setStage1 (if takesNew then new else old) q' else q') = shiftIn old q ∨
      (if both then setStage1 (if takesNew then new else old) q' else q') = shiftIn new q := by
  subst hq
  cases both
  · rcases hx rfl with rfl | rfl
    · exact .inl rfl
    · exact .inr rfl
  · cases takesNew
    · exact .inl (setStage1_shiftIn x old q)
    · exact .inr (setStage1_shiftIn x new q)

/-- At an edge of `clk_r` the read domain resets or runs by `rst_r` alone. -/
theorem readResets_sample {s : State} (he : risesClkR s.nextInput.edge = true) :
    s.sample.readResets = s.nextInput.rstR := by
  rw [State.readResets, sample_inp, he, Bool.true_and]

theorem readRuns_sample {s : State} (he : risesClkR s.nextInput.edge = true) :
    s.sample.readRuns = !s.nextInput.rstR := by
  rw [State.readRuns, sample_inp, he, Bool.true_and]

/-! ### The turns of a step -/

section
variable {s u v w : State} (hreset : ResetEffect s.sample.trackReset u)
  (hread : if s.sample.readRuns then ReadEffect u v (u.sig.inp.deq && !u.emptyR) else v = u)
  (hwrite : if s.sample.writeRuns then WritePartEffect v w else w = v)
include hreset hread hwrite

/-- What the parts of an edge make of the write domain. -/
theorem writeTurn_of_effects (ha : s.cfg.async = true) :
    WriteTurn s ((w.resolveStage1 s.sample.trackReset).close s.sample) := by
  obtain ⟨umem, -, ⟨ucfg, -, -, -, -, -, uinp⟩, -, hasync⟩ := hreset
  obtain ⟨-, ureset, ukeeps, -⟩ := hasync ha
  obtain ⟨vkeeps, vmem, ⟨vcfg, -, -, -, -, -, vinp⟩⟩ := readTurn_keepsWriteDomain hread
  have mem : v.mem = s.mem := vmem.trans umem
  cases he : risesClk s.nextInput.edge
  case false =>
    have hruns : s.sample.writeRuns = false := by simp [State.writeRuns, he]
    have hresets : s.sample.trackReset.writeResets = false := by simp [State.writeResets, he]
    rw [hruns] at hwrite
    obtain rfl : w = v := hwrite
    obtain ⟨hd, hdrop, ⟨wbin, wgray, rq⟩, -, -, hprod⟩ := keepsWriteDomain_trans (ukeeps hresets) vkeeps
    exact .hold he hd hdrop mem ⟨wbin, wgray, (resolveStage1_rq w hruns).trans rq⟩ hprod
  case true =>
    rw [writeRuns_sample he] at hwrite
    cases hr : s.nextInput.rst
    case false =>
      have hresets : s.sample.trackReset.writeResets = false := (writeResets_sample he).trans hr
      rw [hr] at hwrite
      obtain ⟨hd, -, hside, -⟩ := keepsWriteDomain_trans (ukeeps hresets) vkeeps
      obtain ⟨h, hrq⟩ := WritePartEffect.writeRun (s := s) hwrite hd hside mem (vcfg.trans ucfg) (vinp.trans uinp)
      exact .run he hr { h with } (resolved_stage1 hrq fun _ => .inr rfl)
    case true =>
      have hruns : s.sample.trackReset.writeRuns = false := (writeRuns_sample he).trans (by rw [hr]; rfl)
      rw [hr] at hwrite
      obtain rfl : w = v := hwrite
      obtain ⟨up, uacc, uones, -, -, ⟨uwbin, uwgray, urq⟩, -, -, uprod⟩ := ureset ((writeResets_sample he).trans hr)
      obtain ⟨⟨vp, vacc, vones, -⟩, -, ⟨vwbin, vwgray, vrq⟩, -, -, vprod⟩ := vkeeps
      refine .reset he hr (vp.trans up) (vacc.trans uacc) (vones.trans uones) mem
        ⟨vwbin.trans uwbin, vwgray.trans uwgray, ?_⟩ (vprod.trans uprod)
      rw [State.close_rq, resolveStage1_rq w hruns, vrq, urq, ← vcfg]
      rfl

/-- What the parts of an edge make of the read domain, and that `rd_data` shows the byte at the read pointer if there is one. -/
theorem readTurn_of_effects (ha : s.cfg.async = true) :
    ReadTurn s ((w.resolveStage1 s.sample.trackReset).close s.sample) ∧
      (s.emptyR = false → w.sig.rdData = s.memRead s.readIndex) := by
  obtain ⟨umem, -, ⟨ucfg, -, -, -, -, -, uinp⟩, -, hasync⟩ := hreset
  obtain ⟨-, -, uwrite, ureset, ukeeps⟩ := hasync ha
  obtain ⟨⟨wrbin, wrgray, wwq⟩, wvalid, wdata, wcons⟩ := writeTurn_keepsReadDomain hwrite
  obtain ⟨⟨wcfg, -⟩, -⟩ := writeTurn_countsDrop hwrite
  have shown (he : s.emptyR = false) : s.sample.trackReset.sig.rdData = s.memRead s.readIndex := by
    change s.rdDataPort = _
    simp [State.rdDataPort, State.rdDataAsync, ha, he]
  cases he : risesClkR s.nextInput.edge
  case false =>
    have hruns : s.sample.readRuns = false := by simp [State.readRuns, he]
    have hresets : s.sample.trackReset.readResets = false := by simp [State.readResets, he]
    rw [hruns] at hread
    obtain rfl : v = u := hread
    obtain ⟨⟨rbin, rgray, wq⟩, valid, data, cons⟩ := ukeeps hresets
    refine ⟨.hold he ⟨wrbin.trans rbin, wrgray.trans rgray, ?_⟩ (wvalid.trans valid) (wcons.trans cons), fun h0 => ?_⟩
    · exact (resolveStage1_wq w hruns).trans (wwq.trans wq)
    · exact (wdata.trans data).trans (shown h0)
  case true =>
    rw [readRuns_sample he] at hread
    cases hr : s.nextInput.rstR
    case false =>
      have hresets : s.sample.trackReset.readResets = false := (readResets_sample he).trans hr
      rw [hr] at hread
      obtain ⟨hside, -⟩ := ukeeps hresets
      obtain ⟨h, hwq, hdata⟩ := ReadEffect.readRun (s := s) hread hside umem ucfg uinp
      refine ⟨.run he hr ⟨wrbin.trans h.rbin, wrgray.trans h.rgray, wvalid.trans h.rdValid, wcons.trans h.cons⟩ ?_,
        fun h0 => wdata.trans (hdata h0)⟩
      refine resolved_stage1 (wwq.trans hwq) fun hone => .inl ?_
      have hclk : risesClk s.nextInput.edge = false := by
        have hruns : s.sample.trackReset.readRuns = true := (readRuns_sample he).trans (by rw [hr]; rfl)
        rw [hruns] at hone
        exact hone
      have hkept : s.sample.trackReset.writeResets = false := by simp [State.writeResets, hclk]
      obtain ⟨-, -, ⟨-, wgray, -⟩, -⟩ := uwrite hkept
      exact wgray
    case true =>
      have hruns : s.sample.trackReset.readRuns = false := (readRuns_sample he).trans (by rw [hr]; rfl)
      rw [hr] at hread
      obtain rfl : v = u := hread
      obtain ⟨⟨rbin, rgray, wq⟩, valid, data, cons⟩ := ureset ((readResets_sample he).trans hr)
      refine ⟨.reset he hr ⟨wrbin.trans rbin, wrgray.trans rgray, ?_⟩ (wvalid.trans valid) (wcons.trans cons),
        fun h0 => (wdata.trans data).trans (shown h0)⟩
      rw [State.close_wq, resolveStage1_wq w hruns, wwq, wq, ← wcfg]
      rfl

end

/-- What a step of ASYNC = 1 did, if it answered a next state: R178 let it through, it tracked the joint reset, each domain took its
turn, and it recorded the outputs of the state before it. -/
theorem asyncStep_edge {s t : State} (ha : s.cfg.async = true) (h : step s = .next t) :
    s.sample.resetRefusal = none ∧ t.wReset = s.sample.trackReset.wReset ∧ t.rReset = s.sample.trackReset.rReset ∧
      WriteTurn s t ∧ ReadTurn s t ∧ ∃ r, t.trace = r :: s.trace ∧ ShowsBothSides s t r := by
  obtain ⟨hrefusal, u, v, w, hreset, hread, hwrite, rfl⟩ := asyncStep_cases ha h
  have hwturn := writeTurn_of_effects hreset hread hwrite ha
  obtain ⟨hrturn, hdata⟩ := readTurn_of_effects hreset hread hwrite ha
  obtain ⟨-, -, urest, -⟩ := hreset
  obtain ⟨-, -, vrest⟩ := readTurn_keepsWriteDomain hread
  obtain ⟨wrest, -⟩ := writeTurn_countsDrop hwrite
  obtain ⟨-, hwReset, hrReset, -, -, htrace, -⟩ := keepsRest_trans urest (keepsRest_trans vrest wrest)
  refine ⟨hrefusal, hwReset, hrReset, hwturn, hrturn, _, congrArg (List.cons _) htrace, ?_⟩
  exact
    { ack := rfl
      empty := if_pos ha
      full := if_pos ha
      count := if_pos ha
      dropCnt := rfl
      rdData := hdata
      rdValid := rfl
      dec := rfl
      prod := rfl
      cons := rfl }

/-- `rd_valid` of an edge (R167, R173): a hit of the read domain, where it runs. -/
theorem ReadTurn.rdValid_eq {s t : State} (h : ReadTurn s t) :
    t.sig.rdValid = (risesClkR s.nextInput.edge && !s.nextInput.rstR && s.nextInput.deq && !s.emptyR) := by
  cases h with
  | hold he _ hvalid _ => simp [hvalid, he]
  | reset he hr _ hvalid _ => simp [hvalid, hr]
  | run he hr hrun _ => simp [hrun.rdValid, State.nextDeliver, he, hr]

/-- Settles O45: the record shows each side's view, and `rd_valid` is the read domain's hit. -/
theorem asyncOutputsAreEachSidesView : Obligations.AsyncOutputsAreEachSidesView := by
  intro s t hc ha ht
  obtain ⟨-, -, -, -, hread, r, htrace, hshows⟩ := asyncStep_edge ha ht
  have hempty : r.empty = (r.count == 0) := by
    rw [hshows.empty, hshows.count]
    rfl
  refine ⟨r, htrace, hshows.full, hshows.count, hempty, fun h0 => ?_, ?_, hshows.ack, hshows.dropCnt⟩
  · rw [← index_eq_mod hc ha]
    exact hshows.rdData (hshows.empty.symm.trans h0)
  · rw [hshows.rdValid, hread.rdValid_eq, bne, ← hempty, hshows.empty]

/-- Settles O47: a domain whose clock does not rise holds. -/
theorem clockDomainsAreSeparate : Obligations.ClockDomainsAreSeparate := by
  intro s t ha ht
  obtain ⟨-, -, -, hwrite, hread, -⟩ := asyncStep_edge ha ht
  refine ⟨fun he => ?_, fun he => ?_⟩
  · cases hwrite with
    | hold _ hd hdrop hmem hside _ => exact ⟨hd, hdrop, keepsStorage_of_mem hmem, hside⟩
    | reset he' => exact absurd (he.symm.trans he') (by decide)
    | run he' => exact absurd (he.symm.trans he') (by decide)
  · cases hread with
    | hold _ hside => exact hside
    | reset he' => exact absurd (he.symm.trans he') (by decide)
    | run he' => exact absurd (he.symm.trans he') (by decide)

/-! ### When an edge is refused, and when it answers (R178, R180) -/

theorem asyncStep_eq {s : State} (ha : s.cfg.async = true) (h : s.sample.resetRefusal = none) :
    step s = andThen (clockDomains s.sample.trackReset) fun u => .next (u.close s.sample) := by
  rw [step, clockEdge, cycle, if_pos (by exact ha), cycleAsync, h]

theorem asyncStep_refused {s : State} {e : Refusal} (ha : s.cfg.async = true) (h : s.sample.resetRefusal = some e) :
    step s = .refused e := by
  rw [step, clockEdge, cycle, if_pos (by exact ha), cycleAsync, h]
  rfl

/-- In a legal build the domains of an edge always answer. -/
theorem clockDomains_goes {s : State} (hc : LegalConfig s.cfg) (ha : s.cfg.async = true) : Goes (clockDomains s) := by
  obtain ⟨u, hu, -, -, ⟨ucfg, -⟩, -⟩ := resetPart_next ha
  have hindex (x : Nat) : x % 2 ^ addrW u.cfg.depth < u.cfg.depth := by
    rw [ucfg]
    exact index_lt hc ha x
  obtain ⟨v, hv, vcfg⟩ : ∃ v, (if s.readRuns then readPart u else .next u) = .next v ∧ v.cfg = u.cfg := by
    split
    · obtain ⟨v, hv, -, -, -, -, -, -, -, -, -, -, -, -, -, vcfg, -⟩ := read_next u fun _ _ => hindex u.rbin
      exact ⟨v, hv, vcfg⟩
    · exact ⟨u, rfl, rfl⟩
  obtain ⟨w, hw⟩ : Goes (if s.writeRuns then writePart v else .next v) := by
    split
    · obtain ⟨x, hx, hdec, -⟩ := writePart_eq v
      obtain ⟨-, -, -, xcfg, -⟩ := hdec.keeps
      obtain ⟨w, hw, -⟩ := write_next x fun _ _ => by
        rw [State.writeIndex, xcfg, vcfg]
        exact hindex x.wbin
      exact ⟨w, hx.trans hw⟩
    · exact ⟨v, rfl⟩
  exact ⟨_, by rw [clockDomains, hu, andThen_next, hv, andThen_next, hw, andThen_next]⟩

/-- In a legal build an edge that R178 lets through answers. -/
theorem asyncStep_goes {s : State} (hc : LegalConfig s.cfg) (ha : s.cfg.async = true)
    (h : s.sample.resetRefusal = none) : Goes (step s) := by
  obtain ⟨t, ht⟩ := clockDomains_goes (s := s.sample.trackReset) hc ha
  exact ⟨_, by rw [asyncStep_eq ha h, ht, andThen_next]⟩

/-- An edge is let through exactly if each domain that takes it without reset may, in terms of the inputs. -/
theorem sample_resetRefusal_eq_none {s : State} :
    s.sample.resetRefusal = none ↔
      (risesClk s.nextInput.edge = true → s.nextInput.rst = false →
        MayRun s.cfg.syncStages s.wReset s.rReset (risesClkR s.nextInput.edge && s.nextInput.rstR)) ∧
      (risesClkR s.nextInput.edge = true → s.nextInput.rstR = false →
        MayRun s.cfg.syncStages s.rReset s.wReset (risesClk s.nextInput.edge && s.nextInput.rst)) := by
  have hw : s.sample.writeRuns = true ↔ risesClk s.nextInput.edge = true ∧ s.nextInput.rst = false := by
    simp [State.writeRuns]
  have hr : s.sample.readRuns = true ↔ risesClkR s.nextInput.edge = true ∧ s.nextInput.rstR = false := by
    simp [State.readRuns]
  rw [resetRefusal_eq_none, hw, hr, and_imp, and_imp]
  rfl

/-- Settles O40: R178 lets the edge through, and in a legal build its domains answer. -/
theorem legalAsyncStateStopsOnlyOnABrokenReset : Obligations.LegalAsyncStateStopsOnlyOnABrokenReset :=
  fun _ hc ha hw hr => asyncStep_goes hc ha (sample_resetRefusal_eq_none.2 ⟨hw, hr⟩)

end Sys2Proof.Machine

/-! ## Proofs: the joint reset of ASYNC = 1, and what an edge runs (42_fifo_async.md R160, R178; 70_reset_and_hazards.md R200, R201)

`runRefusal` and `resetAfter` say of one domain what the statements say of both; an edge's word is decoded part by part. -/

namespace Sys2Proof.Machine

/-! ### One domain in a joint reset -/

/-- A domain may not run while it or the other waits to join a reset, or while the other begins one. -/
theorem runRefusal_oneDomain {stages : Nat} {own other : DomainReset} {otherResets : Bool}
    (h : own = .pending ∨ other = .pending ∨ (other = .running ∧ otherResets = true)) :
    runRefusal stages own other otherResets = some .resetOfOneDomain := by
  rcases h with rfl | rfl | ⟨rfl, rfl⟩
  · cases other <;> rfl
  · cases own <;> rfl
  · cases own <;> rfl

/-- Else a domain may not run before SYNC_STAGES + 1 of its own edges in reset. -/
theorem runRefusal_tooShort {stages n : Nat} {other : DomainReset} {otherResets : Bool} (hn : n < stages + 1)
    (hother : other ≠ .pending) (hjoint : ¬ (other = .running ∧ otherResets = true)) :
    runRefusal stages (.held n) other otherResets = some .resetTooShort := by
  have hle : n ≤ stages := Nat.lt_succ_iff.1 hn
  cases other with
  | running =>
    obtain rfl : otherResets = false := by simpa using hjoint
    simp [runRefusal, hle]
  | pending => exact absurd rfl hother
  | held m => simp [runRefusal, hle]

/-- A reset edge of a domain is counted, an edge without reset ends its reset, and where its clock does not rise it waits to join a
reset that begins in the other domain. -/
theorem resetAfter_edge (own other : DomainReset) (rises rst otherResets : Bool) :
    let own' := resetAfter own other (rises && rst) (rises && !rst) otherResets
    ((rises && rst) = true → own' = match own with | .held n => .held (n + 1) | _ => .held 1) ∧
      (rises = true → rst = false → own' = .running) ∧
      (rises = false →
        own' = if own = .running ∧ other = .running ∧ otherResets = true then .pending else own) := by
  refine ⟨fun h => ?_, fun hrises hrst => ?_, fun hrises => ?_⟩
  · obtain ⟨rfl, rfl⟩ := Bool.and_eq_true_iff.1 h
    cases own <;> rfl
  · rw [hrises, hrst]
    rfl
  · subst hrises
    cases own <;> cases other <;> cases otherResets <;> simp [resetAfter]

/-- The write domain's refusal is the edge's. -/
theorem resetRefusal_of_write {s : State} {e : Refusal} (hruns : s.writeRuns = true)
    (h : runRefusal s.cfg.syncStages s.wReset s.rReset s.readResets = some e) : s.resetRefusal = some e := by
  rw [State.resetRefusal, if_pos hruns, h, Option.some_or]

/-- The read domain's refusal is the edge's, if the write domain has none. -/
theorem resetRefusal_of_read {s : State} {e : Refusal} (hruns : s.readRuns = true)
    (hwrite : s.writeRuns = true → MayRun s.cfg.syncStages s.wReset s.rReset s.readResets)
    (h : runRefusal s.cfg.syncStages s.rReset s.wReset s.writeResets = some e) : s.resetRefusal = some e := by
  have hnone : (if s.writeRuns then runRefusal s.cfg.syncStages s.wReset s.rReset s.readResets else none) = none := by
    split
    · exact runRefusal_eq_none.2 (hwrite ‹_›)
    · rfl
  rw [State.resetRefusal, hnone, Option.none_or, if_pos hruns, h]

/-- Settles O41: each domain's refusal and its tracking, by its own clock and its own reset. -/
theorem brokenJointResetIsRefused : Obligations.BrokenJointResetIsRefused := by
  intro s ha i writeResets readResets
  refine ⟨fun he hr => ?_, fun he hr hwrite => ?_, fun t ht => ?_⟩
  · have hruns : s.sample.writeRuns = true := (writeRuns_sample he).trans (by rw [hr]; rfl)
    refine ⟨fun h => ?_, fun n hn hlt hother hjoint => ?_⟩
    · exact asyncStep_refused ha (resetRefusal_of_write hruns (runRefusal_oneDomain h))
    · refine asyncStep_refused ha (resetRefusal_of_write hruns ?_)
      rw [State.sample_wReset, hn]
      exact runRefusal_tooShort hlt hother hjoint
  · have hruns : s.sample.readRuns = true := (readRuns_sample he).trans (by rw [hr]; rfl)
    have hmay (hw : s.sample.writeRuns = true) : MayRun s.cfg.syncStages s.wReset s.rReset readResets := by
      obtain ⟨hclk, hrst⟩ := Bool.and_eq_true_iff.1 hw
      exact hwrite hclk (by simpa using hrst)
    refine ⟨fun h => ?_, fun n hn hlt hother hjoint => ?_⟩
    · exact asyncStep_refused ha (resetRefusal_of_read hruns hmay (runRefusal_oneDomain h))
    · refine asyncStep_refused ha (resetRefusal_of_read hruns hmay ?_)
      rw [State.sample_rReset, hn]
      exact runRefusal_tooShort hlt hother hjoint
  · obtain ⟨-, hw, hr, -⟩ := asyncStep_edge ha ht
    obtain ⟨hwheld, hwruns, hwholds⟩ := resetAfter_edge s.wReset s.rReset (risesClk i.edge) i.rst readResets
    obtain ⟨hrheld, hrruns, hrholds⟩ := resetAfter_edge s.rReset s.wReset (risesClkR i.edge) i.rstR writeResets
    exact ⟨fun h => hw.trans (hwheld h), fun h h' => hw.trans (hwruns h h'), fun h => hw.trans (hwholds h),
      fun h => hr.trans (hrheld h), fun h h' => hr.trans (hrruns h h'), fun h => hr.trans (hrholds h)⟩

/-! ### RESET, and the state after it -/

/-- RESET leaves everything of a write domain that takes no reset edge, the byte of its last request included. -/
theorem ResetEffect.keepsWrite {s t : State} (ha : s.cfg.async = true) (h : ResetEffect s t)
    (hw : s.writeResets = false) : KeepsWriteDomain s t ∧ KeepsRequest s t := by
  obtain ⟨-, hpushv, -, -, hasync⟩ := h
  obtain ⟨-, -, hkeeps, -⟩ := hasync ha
  have hd := hkeeps hw
  obtain ⟨-, -, -, hpush, hdec, -⟩ := hkeeps hw
  exact ⟨hd, hpush, hpushv, hdec⟩

/-- Settles O2: RESET answers, and its effect on each domain is stated by that domain's reset edge. -/
theorem asyncResetRestoresTheClockedDomains : Obligations.AsyncResetRestoresTheClockedDomains := by
  intro s evt dat deq ha
  obtain ⟨t, ht, heffect⟩ := reset_next s evt dat deq
  have hkeepsWrite := heffect.keepsWrite ha
  obtain ⟨hmem, -, hrest, -, hasync⟩ := heffect
  obtain ⟨hsync, hwrite, -, hread, hkeepsRead⟩ := hasync ha
  refine ⟨t, ht, ?_, ?_, keepsStorage_of_mem hmem, hsync, hrest⟩
  · split
    case isTrue h => exact hwrite (Bool.and_eq_true_iff.2 h)
    case isFalse h =>
      have hw : s.writeResets = false := Bool.eq_false_iff.2 fun hw => h (Bool.and_eq_true_iff.1 hw)
      obtain ⟨⟨hd, hdrop, hside, -, -, hprod⟩, hrequest⟩ := hkeepsWrite hw
      exact ⟨hd, hdrop, hside, hrequest, hprod⟩
  · split
    case isTrue h =>
      obtain ⟨hside, hvalid, -, hcons⟩ := hread (Bool.and_eq_true_iff.2 h)
      exact ⟨hside, hvalid, hcons⟩
    case isFalse h => exact hkeepsRead (Bool.eq_false_iff.2 fun hr => h (Bool.and_eq_true_iff.1 hr))

/-- The distance of a pointer from itself. -/
theorem ptrDiff_self {depth a : Nat} (h : a < ptrMod depth) : ptrDiff depth a a = 0 := by
  simp [ptrDiff_eq h h]

theorem ungray_zero (depth : Nat) : ungray depth 0 = 0 := ungray_gray (ptrMod_pos depth)

theorem lastStage_replicate_zero (n : Nat) : lastStage (List.replicate n 0) = 0 := by
  cases n with
  | zero => rfl
  | succ n => simp [lastStage, List.replicate_succ']

/-- Both sides of a FIFO of ASYNC = 1 right after reset see no byte. -/
theorem counts_of_sidesReset {s : State} (hw : s.WriteSideReset) (hr : s.ReadSideReset) :
    s.countW = 0 ∧ s.countR = 0 := by
  obtain ⟨hwbin, -, hrq⟩ := hw
  obtain ⟨hrbin, -, hwq⟩ := hr
  have hseen : s.rseen = 0 ∧ s.wseen = 0 := by
    simp only [State.rseen, State.wseen, hrq, hwq, lastStage_replicate_zero, ungray_zero, and_self]
  obtain ⟨hrseen, hwseen⟩ := hseen
  rw [State.countW, State.countR, hrseen, hwseen, hwbin, hrbin, ptrDiff_self (ptrMod_pos _), and_self]

/-- Settles O4: the registers are written out in `State.resetWith`; both sides then count 0. -/
theorem resetStateIsIdleAndEmpty : Obligations.ResetStateIsIdleAndEmpty := by
  intro c hc s
  obtain ⟨hdepth, -⟩ := hc
  have hwside : s.WriteSideReset := ⟨rfl, rfl, rfl⟩
  have hrside : s.ReadSideReset := ⟨rfl, rfl, rfl⟩
  obtain ⟨hw, hr⟩ := counts_of_sidesReset hwside hrside
  have hcount : s.count = 0 := rfl
  have hcfg : s.cfg = c := rfl
  have hne : 0 ≠ c.depth := by omega
  refine ⟨rfl, rfl, rfl, rfl, rfl, rfl, rfl, rfl, rfl, hwside, hrside, ?_⟩
  cases ha : c.async <;>
    simp [State.emptyPort, State.fullPort, State.countPort, State.emptyR, State.fullW, State.emptySync, State.fullSync,
      hcfg, ha, hw, hr, hcount, hne]

/-! ### What an edge runs (log entries 6, 9 and 15) -/

theorem andThen_assoc (r : Result) (k l : State → Result) :
    andThen (andThen r k) l = andThen r fun s => andThen (k s) l := by
  cases r <;> rfl

/-- A word at which a reset is sampled is RESET's. -/
theorem decode_piwOf {s : State} (h : s.samplesReset = true) :
    Sys2Proof.decode .piw s.piwOf = .ok (.reset s.sig.inp.evt s.sig.inp.dat s.sig.inp.deq) := by
  rw [State.piwOf, h, piw_reset]

/-- The reset part of an edge is RESET where a domain samples its reset, and nothing where none does. -/
theorem resetPart_of_reset {s : State} (h : s.samplesReset = true) :
    resetPart s = exec (.reset s.sig.inp.evt s.sig.inp.dat s.sig.inp.deq) s := by
  rw [resetPart, if_pos h, execWord_piw h]
  rfl

theorem resetPart_of_run {s : State} (h : s.samplesReset = false) : resetPart s = .next s := by
  rw [resetPart, h, if_neg (by simp)]

/-- The write domain's part is the decoder's operation and then the one its FOW_W decodes to. -/
theorem writePart_of_decode {s t : State} {i j : Instr} (hi : decoderPart s = exec i s) (ht : exec i s = .next t)
    (hj : Sys2Proof.decode .fowW t.fowWOf = .ok j) : writePart s = exec j t := by
  rw [writePart, hi, ht, andThen_next, execWord_of_decode hj]

/-- An edge of one clock alone resolves no synchroniser. -/
theorem resolveStage1_of_one {old : State} (s : State) (h : old.sig.inp.edge ≠ .both) : s.resolveStage1 old = s := by
  cases he : old.sig.inp.edge
  case clk => simp [State.resolveStage1, State.readRuns, he, risesClkR]
  case clkR => simp [State.resolveStage1, State.writeRuns, he, risesClk]
  case both => exact absurd he h

/-- An edge at which no domain runs is its reset part. -/
theorem clockDomains_of_reset {s : State} (hw : s.writeRuns = false) (hr : s.readRuns = false) :
    clockDomains s = resetPart s := by
  have hkeep (t : State) : t.resolveStage1 s = t := by simp [State.resolveStage1, hw, hr]
  simp only [clockDomains, hw, hr, Bool.false_eq_true, if_false, andThen_next, hkeep]
  cases resetPart s <;> rfl

/-- An edge at which the write domain alone runs. -/
theorem clockDomains_of_write {s t : State} (hreset : resetPart s = .next t) (hw : s.writeRuns = true)
    (hr : s.readRuns = false) : clockDomains s = andThen (writePart t) fun v => .next (v.resolveStage1 s) := by
  simp only [clockDomains, hreset, hw, hr, andThen_next, Bool.false_eq_true, if_false, if_true]

/-- An edge at which the read domain alone runs. -/
theorem clockDomains_of_read {s t : State} (hreset : resetPart s = .next t) (hw : s.writeRuns = false)
    (hr : s.readRuns = true) : clockDomains s = andThen (readPart t) fun v => .next (v.resolveStage1 s) := by
  simp only [clockDomains, hreset, hw, hr, andThen_next, Bool.false_eq_true, if_false, if_true]

/-- An edge at which both domains run. -/
theorem clockDomains_of_both {s t u : State} (hreset : resetPart s = .next t) (hread : readPart t = .next u)
    (hw : s.writeRuns = true) (hr : s.readRuns = true) :
    clockDomains s = andThen (writePart u) fun v => .next (v.resolveStage1 s) := by
  simp only [clockDomains, hreset, hread, hw, hr, andThen_next, if_true]

/-- At every edge some clock rises. -/
theorem rises_clk_or_clkR (e : ClockEdge) : risesClk e = true ∨ risesClkR e = true := by
  cases e <;> simp [risesClk, risesClkR]

/-- Settles O30: with ASYNC = 0 by the cycle's own case, with ASYNC = 1 because no domain runs, so that nothing is refused and the
edge is its reset part. -/
theorem resetStepRunsTheDecodedReset : Obligations.ResetStepRunsTheDecodedReset := by
  refine fun s => ⟨fun ha hr => ?_, fun ha hclk hclkR => ?_⟩
  · have hsamples : s.sample.samplesReset = true := by simpa [State.samplesReset, ha] using hr
    refine ⟨decode_piwOf hsamples, ?_⟩
    rw [step, clockEdge, cycle, if_neg (by simp [ha]), cycleSync, if_pos (by exact hr), execWord_piw hsamples]
    rfl
  · have hsamples : s.sample.samplesReset = true := by
      rw [State.samplesReset, if_pos (by exact ha), Bool.or_eq_true]
      exact (rises_clk_or_clkR s.nextInput.edge).imp (fun he => (writeResets_sample he).trans (hclk he))
        fun he => (readResets_sample he).trans (hclkR he)
    have hrefusal : s.sample.resetRefusal = none :=
      sample_resetRefusal_eq_none.2 ⟨fun he hr => by simp [hclk he] at hr, fun he hr => by simp [hclkR he] at hr⟩
    have hw : s.sample.trackReset.writeRuns = false := by simpa [State.writeRuns] using hclk
    have hr : s.sample.trackReset.readRuns = false := by simpa [State.readRuns] using hclkR
    refine ⟨decode_piwOf hsamples, ?_⟩
    rw [asyncStep_eq ha hrefusal, clockDomains_of_reset hw hr, resetPart_of_reset (s := s.sample.trackReset) hsamples]
    rfl

/-- A step at which the write domain alone runs: the decoder's operation and then the one its FOW_W decodes to. -/
theorem asyncStep_of_write {s t u : State} {i j : Instr} (ha : s.cfg.async = true)
    (hrefusal : s.sample.resetRefusal = none) (hreset : resetPart s.sample.trackReset = .next t)
    (hw : s.sample.writeRuns = true) (hr : s.sample.readRuns = false) (hi : decoderPart t = exec i t)
    (hu : exec i t = .next u) (hj : Sys2Proof.decode .fowW u.fowWOf = .ok j) :
    step s = andThen (exec j u) fun v => .next ((v.resolveStage1 s.sample.trackReset).close s.sample) := by
  rw [asyncStep_eq ha hrefusal, clockDomains_of_write hreset hw hr, writePart_of_decode hi hu hj, andThen_assoc]
  rfl

/-- A step at which the read domain alone runs: the operation its FOW_R decodes to. -/
theorem asyncStep_of_read {s t : State} {k : Instr} (ha : s.cfg.async = true)
    (hrefusal : s.sample.resetRefusal = none) (hreset : resetPart s.sample.trackReset = .next t)
    (hw : s.sample.writeRuns = false) (hr : s.sample.readRuns = true)
    (hk : Sys2Proof.decode .fowR t.fowROf = .ok k) :
    step s = andThen (exec k t) fun v => .next ((v.resolveStage1 s.sample.trackReset).close s.sample) := by
  rw [asyncStep_eq ha hrefusal, clockDomains_of_read hreset hw hr, readPart, execWord_of_decode hk, andThen_assoc]
  rfl

/-- Settles O31: R178 lets each of the five kinds of edge through, and the parts that run are the decoded operations. -/
theorem asyncStepRunsTheDecodedOperations : Obligations.AsyncStepRunsTheDecodedOperations := by
  intro s i ha hi q reset writeMay readMay
  have hi : if q.takesStep then Sys2Proof.decode .dew q.dewOf = .ok i else i = .decHold := hi
  have hnone (h : q.writeResets = false ∧ q.readResets = false) : resetPart q = .next q :=
    resetPart_of_run <| by simpa [State.samplesReset, q, ha] using h
  have hsome {t : State} (h : q.writeResets = true ∨ q.readResets = true) (ht : exec reset q = .next t) :
      resetPart q = .next t :=
    (resetPart_of_reset <| by simpa [State.samplesReset, q, ha] using h).trans ht
  have hone (he : s.nextInput.edge ≠ .both) (v : State) : v.resolveStage1 q = v := resolveStage1_of_one v he
  refine ⟨fun he hr hmay j t ht hj => ?_, fun he hr hmay k hk => ?_, fun he hr hrR hmayW hmayR j k t u hk ht hu hj => ?_,
    fun he hr hrR hmay k t ht hk => ?_, fun he hr hrR hmay j t u ht hu hj => ?_⟩
  · have hrefusal : s.sample.resetRefusal = none := by
      rw [sample_resetRefusal_eq_none, he]
      exact ⟨fun _ _ => hmay, fun h => nomatch h⟩
    have hpart := hnone (by simp [q, State.writeResets, State.readResets, he, hr, risesClkR])
    rw [asyncStep_of_write ha hrefusal hpart (by simp [State.writeRuns, he, hr, risesClk])
      (by simp [State.readRuns, he, risesClkR]) (decoderPart_of_decode hi) ht hj]
    simp only [q, hone (by simp [he])]
  · have hrefusal : s.sample.resetRefusal = none := by
      rw [sample_resetRefusal_eq_none, he]
      exact ⟨(fun h => nomatch h), fun _ _ => hmay⟩
    have hpart := hnone (by simp [q, State.writeResets, State.readResets, he, hr, risesClk])
    rw [asyncStep_of_read ha hrefusal hpart (by simp [State.writeRuns, he, risesClk])
      (by simp [State.readRuns, he, hr, risesClkR]) hk]
    simp only [q, hone (by simp [he])]
  · have hrefusal : s.sample.resetRefusal = none := by
      rw [sample_resetRefusal_eq_none, hr, hrR, Bool.and_false, Bool.and_false]
      exact ⟨fun _ _ => hmayW, fun _ _ => hmayR⟩
    have hpart := hnone (by simp [q, State.writeResets, State.readResets, hr, hrR])
    have hw : q.writeRuns = true := by simp [q, State.writeRuns, he, hr, risesClk]
    have hrd : q.readRuns = true := by simp [q, State.readRuns, he, hrR, risesClkR]
    have hread : readPart q = .next t := by rw [readPart, execWord_of_decode hk, ht]
    obtain ⟨-, -, -, -, -, -, -, -, -, hd, -, -, -, -, -, -, -, -, -, hinp⟩ := read_effect hread
    have hdec : decoderPart t = exec i t := decoderPart_of_keeps hd (by rw [hinp]) (by rw [hinp]) hi
    rw [asyncStep_eq ha hrefusal, clockDomains_of_both hpart hread hw hrd, writePart_of_decode hdec hu hj, andThen_assoc]
    rfl
  · have hrefusal : s.sample.resetRefusal = none := by
      rw [sample_resetRefusal_eq_none, he, hr, hrR]
      exact ⟨(fun _ h => nomatch h), fun _ _ => hmay⟩
    have hpart := hsome (.inl (by simp [q, State.writeResets, he, hr, risesClk])) ht
    exact asyncStep_of_read ha hrefusal hpart (by simp [State.writeRuns, hr])
      (by simp [State.readRuns, he, hrR, risesClkR]) hk
  · have hrefusal : s.sample.resetRefusal = none := by
      rw [sample_resetRefusal_eq_none, he, hr, hrR]
      exact ⟨fun _ _ => hmay, fun _ h => nomatch h⟩
    have hpart := hsome (.inr (by simp [q, State.readResets, he, hrR, risesClkR])) ht
    have heffect : ResetEffect q t := reset_effect (evt := s.nextInput.evt) (dat := s.nextInput.dat)
      (deq := s.nextInput.deq) ht
    obtain ⟨⟨hd, -⟩, -⟩ := heffect.keepsWrite (s := q) ha (by simp [q, State.writeResets, hr])
    obtain ⟨-, -, ⟨-, -, -, -, -, -, hinp⟩, -⟩ := heffect
    have hdec : decoderPart t = exec i t := decoderPart_of_keeps hd (by rw [hinp]) (by rw [hinp]) hi
    exact asyncStep_of_write ha hrefusal hpart (by simp [State.writeRuns, he, hr, risesClk])
      (by simp [State.readRuns, hrR]) hdec hu hj

end Sys2Proof.Machine

/-! ## Proofs: the decoder's invariants and the frame (10_state.md R30; 40_decoder.md R71, R103 to R120)

The decoder's function keeps R30, so every step of either variant does. A frame is then followed slot by slot: R30 gives the count
of ones at the parity slot, and no byte is pushed before the 11th slot from idle. -/

namespace Sys2Proof.Machine

/-! ### One data bit (R103) -/

/-- `acc` after the data slot of bit `k`. -/
theorem absorb_getLsbD (acc : Byte) {k : Nat} (hk : k < 8) (dat : Bool) (j : Nat) :
    (acc ||| (if dat then BitVec.twoPow 8 k else 0)).getLsbD j = (acc.getLsbD j || (dat && j == k)) := by
  rw [BitVec.getLsbD_or]
  cases dat
  · simp
  · simp [BitVec.getLsbD_twoPow, hk, eq_comm, Bool.beq_eq_decide_eq]

/-- A bit that was 0 and is set to `dat` adds `dat` to the number of ones. -/
theorem popcount_absorb {acc acc' : Byte} {k : Nat} {dat : Bool} (hk : k < 8) (h0 : acc.getLsbD k = false)
    (hbit : ∀ j, acc'.getLsbD j = (acc.getLsbD j || (dat && j == k))) :
    popcount acc' = popcount acc + dat.toNat := by
  unfold popcount
  cases dat
  · simp [hbit]
  · have hperm : ((List.range 8).filter fun i => acc'.getLsbD i).Perm
        (k :: (List.range 8).filter fun i => acc.getLsbD i) := by
      refine (List.perm_ext_iff_of_nodup (List.nodup_range.filter _) ?_).2 fun j => ?_
      · exact List.nodup_cons.2 ⟨by simp [h0], List.nodup_range.filter _⟩
      · by_cases hj : j = k
        · simp [hbit, hj, hk]
        · simp [hbit, hj]
    simpa using hperm.length_eq

/-- Where no bit from `k` on was set, none from `k + 1` on is after the data slot of bit `k`. -/
theorem shiftRight_absorb {acc acc' : Byte} {k : Nat} {dat : Bool} (hacc : acc >>> k = 0)
    (hbit : ∀ j, acc'.getLsbD j = (acc.getLsbD j || (dat && j == k))) : acc' >>> (k + 1) = 0 := by
  refine BitVec.eq_of_getLsbD_eq fun i _ => ?_
  have hzero : acc.getLsbD (k + (i + 1)) = false := by
    simpa [BitVec.getLsbD_ushiftRight] using congrArg (·.getLsbD (i + 1)) hacc
  simp [BitVec.getLsbD_ushiftRight, hbit, show k + 1 + i = k + (i + 1) by omega, hzero]

/-! ### The decoder's function, slot by slot (R101 to R118) -/

theorem decoderFunction_start (acc : Byte) (ones : Nibble) (dat : Bool) :
    decoderFunction 0 acc ones dat = if dat then (0, acc, ones, none) else (1, acc, ones, none) := rfl

theorem decoderFunction_data {p : Nibble} {k : Nat} (hk : k < 8) (hp : p.toNat = k + 1) (acc : Byte) (ones : Nibble)
    (dat : Bool) : decoderFunction p acc ones dat =
      (p + 1, acc ||| (if dat then BitVec.twoPow 8 k else 0), ones + (if dat then 1 else 0), none) := by
  have h0 : p ≠ 0 := by
    rintro rfl
    cases hp
  rw [decoderFunction, if_neg h0, if_pos (by omega), hp, Nat.add_sub_cancel]

theorem decoderFunction_stop (acc : Byte) (ones : Nibble) (dat : Bool) :
    decoderFunction 10 acc ones dat = (0, 0, 0, if dat then some acc else none) := rfl

theorem decoderFunction_recover {p : Nibble} (hp : 11 ≤ p.toNat) (acc : Byte) (ones : Nibble) (dat : Bool) :
    decoderFunction p acc ones dat = (0, 0, 0, none) := by
  have hne {q : Nibble} (hq : q.toNat < 11) : p ≠ q := by
    rintro rfl
    omega
  rw [decoderFunction, if_neg (hne (by decide)), if_neg (by omega), if_neg (hne (by decide)), if_neg (hne (by decide))]

/-- Every slot is the start slot, a data slot, the parity slot, the stop slot, or none of a frame. -/
theorem slot_cases (p : Nibble) :
    p = 0 ∨ (∃ k, k < 8 ∧ p.toNat = k + 1) ∨ p = 9 ∨ p = 10 ∨ 11 ≤ p.toNat := by
  have hnine : p.toNat = 9 → p = 9 := fun h => BitVec.eq_of_toNat_eq h
  have hten : p.toNat = 10 → p = 10 := fun h => BitVec.eq_of_toNat_eq h
  have hzero : p.toNat = 0 → p = 0 := fun h => BitVec.eq_of_toNat_eq h
  rcases Nat.lt_or_ge p.toNat 9 with hlt | hge
  · rcases Nat.eq_zero_or_pos p.toNat with h0 | hpos
    · exact .inl (hzero h0)
    · exact .inr (.inl ⟨p.toNat - 1, by omega, by omega⟩)
  · by_cases h9 : p.toNat = 9
    · exact .inr (.inr (.inl (hnine h9)))
    · by_cases h10 : p.toNat = 10
      · exact .inr (.inr (.inr (.inl (hten h10))))
      · exact .inr (.inr (.inr (.inr (by omega))))

/-! ### The invariants of R30 -/

/-- R30 on the three registers. -/
def LegalDecoder (p : Nibble) (acc : Byte) (ones : Nibble) : Prop :=
  p.toNat ≤ 10 ∧ (p = 0 → acc = 0 ∧ ones = 0) ∧
  (1 ≤ p.toNat → p.toNat ≤ 9 → acc >>> (p.toNat - 1) = 0 ∧ ones.toNat = popcount acc) ∧
  (p = 10 → ones.toNat = popcount acc) ∧ ones.toNat ≤ 8

theorem decoderInv_iff {s : State} : s.DecoderInv ↔ LegalDecoder s.p s.acc s.ones := Iff.rfl

theorem legalDecoder_idle : LegalDecoder 0 0 0 := by simp [LegalDecoder]

theorem popcount_le (v : Byte) : popcount v ≤ 8 := popcount_le_of_shiftRight (BitVec.ushiftRight_eq_zero (Nat.le_refl 8))

/-- R30 at slot `k + 1` of the data and parity slots. -/
theorem legalDecoder_slot {p : Nibble} {acc : Byte} {ones : Nibble} {k : Nat} (hk : k < 9) (hp : p.toNat = k + 1) :
    LegalDecoder p acc ones ↔ acc >>> k = 0 ∧ ones.toNat = popcount acc := by
  have h0 : p ≠ 0 := by
    rintro rfl
    cases hp
  have h10 : p ≠ 10 := by
    rintro rfl
    have : (10#4).toNat = k + 1 := hp
    simp at this
    omega
  constructor
  · rintro ⟨-, -, h, -⟩
    simpa [hp] using h (by omega) (by omega)
  · intro h
    refine ⟨by omega, fun h => absurd h h0, fun _ _ => by simpa [hp] using h, fun h => absurd h h10, ?_⟩
    rw [h.2]
    exact popcount_le acc

/-- R30 at the stop slot. -/
theorem legalDecoder_stop {acc : Byte} {ones : Nibble} : LegalDecoder 10 acc ones ↔ ones.toNat = popcount acc := by
  constructor
  · rintro ⟨-, -, -, h, -⟩
    exact h rfl
  · intro h
    refine ⟨by decide, fun h => absurd h (by decide), fun _ h => absurd h (by decide), fun _ => h, ?_⟩
    rw [h]
    exact popcount_le acc

/-- The decoder's function keeps R30. -/
theorem decoderFunction_keeps {p : Nibble} {acc : Byte} {ones : Nibble} (h : LegalDecoder p acc ones) (dat : Bool) :
    let d := decoderFunction p acc ones dat
    LegalDecoder d.1 d.2.1 d.2.2.1 := by
  intro d
  rcases slot_cases p with rfl | ⟨k, hk, hp⟩ | rfl | rfl | hp
  · obtain ⟨-, hidle, -⟩ := id h
    obtain ⟨rfl, rfl⟩ := hidle rfl
    cases dat
    · have hpopcount : popcount 0 = 0 := by decide
      exact (legalDecoder_slot (k := 0) (by decide) rfl).2 ⟨rfl, hpopcount.symm⟩
    · exact h
  · obtain ⟨hacc, hones⟩ := (legalDecoder_slot (by omega) hp).1 h
    have hbit := absorb_getLsbD acc hk dat
    have h0 : acc.getLsbD k = false := by simpa [BitVec.getLsbD_ushiftRight] using congrArg (·.getLsbD 0) hacc
    have hle := popcount_le_of_shiftRight hacc
    have hnext : (p + 1).toNat = k + 1 + 1 := by
      rw [BitVec.toNat_add, hp]
      exact Nat.mod_eq_of_lt (by simp; omega)
    simp only [d, decoderFunction_data hk hp]
    refine (legalDecoder_slot (by omega) hnext).2 ⟨shiftRight_absorb hacc hbit, ?_⟩
    rw [toNat_ones_add (by omega), popcount_absorb hk h0 hbit, hones]
  · obtain ⟨-, hones⟩ := (legalDecoder_slot (k := 8) (by decide) rfl).1 h
    simp only [d, decoderFunction_parity]
    split
    · exact legalDecoder_idle
    · exact legalDecoder_stop.2 hones
  · exact legalDecoder_idle
  · simp only [d, decoderFunction_recover hp]
    exact legalDecoder_idle

/-- The next cycle's decoder part keeps R30. -/
theorem nextDecoder_keeps {s : State} (h : s.DecoderInv) :
    LegalDecoder s.nextDecoder.1 s.nextDecoder.2.1 s.nextDecoder.2.2.1 := by
  unfold State.nextDecoder
  split
  · exact decoderFunction_keeps h _
  · exact h

/-- Settles O33: in either variant a step runs the decoder's function, resets the decoder, or leaves it. -/
theorem stepKeepsTheDecoderInvariants : Obligations.StepKeepsTheDecoderInvariants := by
  intro s t hi h
  rw [decoderInv_iff]
  cases ha : s.cfg.async
  · obtain ⟨r, -, -, hreset, hrun⟩ := syncStep_record ha h
    cases hr : s.nextInput.rst
    · rw [(hrun hr).p, (hrun hr).acc, (hrun hr).ones]
      exact nextDecoder_keeps hi
    · obtain ⟨hp, hacc, hones, -⟩ := (hreset hr).decoder
      rw [hp, hacc, hones]
      exact legalDecoder_idle
  · obtain ⟨-, -, -, hwrite, -⟩ := asyncStep_edge ha h
    cases hwrite with
    | hold _ hd =>
      obtain ⟨hp, hacc, hones, -⟩ := hd
      rw [hp, hacc, hones]
      exact hi
    | reset _ _ hp hacc hones =>
      rw [hp, hacc, hones]
      exact legalDecoder_idle
    | run _ _ hrun =>
      rw [hrun.p, hrun.acc, hrun.ones]
      exact nextDecoder_keeps hi

/-! ### Slots in a row (R120) -/

/-- The byte a decoder operation has pushed, if it has. -/
def State.pushed (t : State) : List Byte := if t.sig.push then [t.sig.pushv] else []

/-- One slot: the decoder's function on the registers, and the byte it pushes, if it does. -/
theorem decoderStep_registers (s : State) (b : Bool) :
    let d := decoderFunction s.p s.acc s.ones b
    ∃ t, decoderStep s b = .next t ∧ t.p = d.1 ∧ t.acc = d.2.1 ∧ t.ones = d.2.2.1 ∧ t.pushed = d.2.2.2.toList := by
  intro d
  obtain ⟨t, ht, hd, -⟩ := decoderStep_spec s b
  obtain ⟨hp, hacc, hones, -, hpush, hpushv⟩ := hd.writes
  refine ⟨t, ht, hp, hacc, hones, ?_⟩
  change _ → t.sig.pushv = d.2.2.2.getD 0 at hpushv
  rw [State.pushed, hpush]
  cases hb : d.2.2.2 with
  | none => rfl
  | some v =>
    rw [hb] at hpushv
    simp [hpushv rfl]

theorem feedSlots_cons {s t u : State} {b : Bool} {bs : List Bool} {vs : List Byte} (ht : decoderStep s b = .next t)
    (hu : feedSlots bs t = some (u, vs)) : feedSlots (b :: bs) s = some (u, t.pushed ++ vs) := by
  simp [feedSlots, ht, hu, State.pushed]

theorem feedSlots_append {as bs : List Bool} {s t u : State} {vs ws : List Byte} (ht : feedSlots as s = some (t, vs))
    (hu : feedSlots bs t = some (u, ws)) : feedSlots (as ++ bs) s = some (u, vs ++ ws) := by
  induction as generalizing s vs with
  | nil =>
    cases ht
    exact hu
  | cons a as ih =>
    obtain ⟨x, hx, -⟩ := decoderStep_registers s a
    cases hrest : feedSlots as x with
    | none => simp [feedSlots, hx, hrest] at ht
    | some r =>
      rw [feedSlots_cons hx hrest] at ht
      cases ht
      rw [List.cons_append, feedSlots_cons hx (ih hrest), List.append_assoc]

/-- Before the 11th slot from idle no byte is pushed: a slot advances by one at most, and only the stop slot pushes. -/
theorem feedSlots_of_early {bs : List Bool} {s : State} (h : s.p.toNat + bs.length ≤ 10) :
    ∃ t, feedSlots bs s = some (t, []) := by
  induction bs generalizing s with
  | nil => exact ⟨s, rfl⟩
  | cons b bs ih =>
    rw [List.length_cons] at h
    obtain ⟨t, ht, hp, -, -, hpushed⟩ := decoderStep_registers s b
    have hearly : t.p.toNat ≤ s.p.toNat + 1 ∧ t.pushed = [] := by
      rw [hp, hpushed]
      rcases slot_cases s.p with h0 | ⟨k, hk, hslot⟩ | h9 | h10 | hlate
      · rw [h0, decoderFunction_start]
        cases b <;> simp
      · rw [decoderFunction_data hk hslot]
        refine ⟨?_, rfl⟩
        rw [BitVec.toNat_add]
        exact Nat.mod_le _ _
      · rw [h9, decoderFunction_parity]
        split <;> simp
      · simp [h10] at h
      · omega
    obtain ⟨hle, hnone⟩ := hearly
    obtain ⟨u, hu⟩ := ih (s := t) (by omega)
    exact ⟨u, by rw [feedSlots_cons ht hu, hnone]; rfl⟩

/-- The first `n` data slots after the start slot: `acc` holds the first `n` bits of the payload. -/
theorem feedSlots_data {s : State} (hp : s.p = 1) (hacc : s.acc = 0) (hones : s.ones = 0) (v : Byte) {n : Nat}
    (hn : n ≤ 8) :
    ∃ t, feedSlots ((List.range n).map fun k => v.getLsbD k) s = some (t, []) ∧ t.p.toNat = n + 1 ∧
      LegalDecoder t.p t.acc t.ones ∧ ∀ j, t.acc.getLsbD j = (decide (j < n) && v.getLsbD j) := by
  induction n with
  | zero =>
    have hpopcount : popcount 0 = 0 := by decide
    refine ⟨s, rfl, by rw [hp]; rfl, ?_, by simp [hacc]⟩
    rw [hp, hacc, hones]
    exact (legalDecoder_slot (k := 0) (by decide) rfl).2 ⟨rfl, hpopcount.symm⟩
  | succ n ih =>
    obtain ⟨t, ht, hslot, hlegal, hbits⟩ := ih (by omega)
    obtain ⟨u, hu, up, uacc, uones, upushed⟩ := decoderStep_registers t (v.getLsbD n)
    have hkeeps : LegalDecoder u.p u.acc u.ones := by
      rw [up, uacc, uones]
      exact decoderFunction_keeps hlegal (v.getLsbD n)
    rw [decoderFunction_data (by omega) hslot] at up uacc upushed
    refine ⟨u, ?_, ?_, hkeeps, fun j => ?_⟩
    · have hone : feedSlots [v.getLsbD n] t = some (u, []) := by rw [feedSlots_cons hu rfl, upushed]; rfl
      rw [List.range_succ, List.map_append]
      exact feedSlots_append ht hone
    · rw [up, BitVec.toNat_add, hslot]
      exact Nat.mod_eq_of_lt (by simp; omega)
    · rw [uacc, absorb_getLsbD _ (by omega), hbits]
      rcases Nat.lt_trichotomy j n with hlt | rfl | hgt
      · simp [hlt, Nat.lt_succ_of_lt hlt, Nat.ne_of_lt hlt]
      · simp
      · simp [Nat.not_lt_of_gt hgt, show ¬ j < n + 1 by omega, Nat.ne_of_gt hgt]

/-- From idle, a start slot of 0 and the eight data slots of `v` reach the parity slot with `v` in `acc` and its ones counted. -/
theorem feedSlots_payload {s : State} (hp : s.p = 0) (hacc : s.acc = 0) (hones : s.ones = 0) (v : Byte) :
    ∃ t, feedSlots (false :: (List.range 8).map fun k => v.getLsbD k) s = some (t, []) ∧ t.p = 9 ∧ t.acc = v ∧
      t.ones.toNat = popcount v := by
  obtain ⟨t, ht, tp, tacc, tones, tpushed⟩ := decoderStep_registers s false
  rw [hp, hacc, hones, decoderFunction_start] at tp tacc tones tpushed
  obtain ⟨u, hu, hslot, hlegal, hbits⟩ := feedSlots_data tp tacc tones v (Nat.le_refl 8)
  have hv : u.acc = v := BitVec.eq_of_getLsbD_eq fun i hi => by rw [hbits, decide_eq_true hi, Bool.true_and]
  obtain ⟨-, hcount⟩ := (legalDecoder_slot (k := 8) (by decide) hslot).1 hlegal
  refine ⟨u, by rw [feedSlots_cons ht hu, tpushed]; rfl, BitVec.eq_of_toNat_eq hslot, hv, by rw [hcount, hv]⟩

/-- The last two slots of a frame: the byte is pushed if parity is odd and the stop bit is 1. -/
theorem feedSlots_end {s : State} (hp : s.p = 9) (hones : s.ones.toNat = popcount s.acc) (parity stop : Bool) :
    ∃ t pushed, feedSlots [parity, stop] s = some (t, pushed) ∧
      if (popcount s.acc + parity.toNat) % 2 = 1 ∧ stop = true
        then pushed = [s.acc] ∧ t.p = 0 ∧ t.acc = 0 ∧ t.ones = 0
        else pushed = [] := by
  have hodd : s.ones.getLsbD 0 ≠ parity ↔ (popcount s.acc + parity.toNat) % 2 = 1 := hones ▸ lsb_ne_iff_odd s.ones parity
  obtain ⟨t, ht, tp, tacc, tones, tpushed⟩ := decoderStep_registers s parity
  rw [hp, decoderFunction_parity] at tp tacc tones tpushed
  by_cases hpass : s.ones.getLsbD 0 = parity
  · rw [if_pos hpass] at tp tpushed
    obtain ⟨u, hu⟩ := feedSlots_of_early (bs := [stop]) (s := t) (by rw [tp]; simp)
    refine ⟨u, [], by rw [feedSlots_cons ht hu, tpushed]; rfl, ?_⟩
    rw [if_neg fun h => hodd.2 h.1 hpass]
  · rw [if_neg hpass] at tp tacc tones tpushed
    obtain ⟨u, hu, up, uacc, uones, upushed⟩ := decoderStep_registers t stop
    rw [tp, tacc, decoderFunction_stop] at up uacc uones upushed
    refine ⟨u, u.pushed, by rw [feedSlots_cons ht (feedSlots_cons hu rfl), tpushed]; simp, ?_⟩
    rw [upushed]
    cases stop
    · simp
    · rw [if_pos ⟨hodd.1 hpass, rfl⟩]
      exact ⟨rfl, up, uacc, uones⟩

/-- The 11 slots of a frame from idle (R120). -/
theorem feedSlots_frame {s : State} (hp : s.p = 0) (hacc : s.acc = 0) (hones : s.ones = 0) (s0 : Bool) (v : Byte)
    (parity stop : Bool) :
    ∃ t pushed, feedSlots (s0 :: (List.range 8).map (fun k => v.getLsbD k) ++ [parity, stop]) s = some (t, pushed) ∧
      if s0 = false ∧ (popcount v + parity.toNat) % 2 = 1 ∧ stop = true
        then pushed = [v] ∧ t.p = 0 ∧ t.acc = 0 ∧ t.ones = 0
        else pushed = [] := by
  cases s0
  · obtain ⟨t, ht, tp, rfl, tones⟩ := feedSlots_payload hp hacc hones v
    obtain ⟨u, pushed, hu, hend⟩ := feedSlots_end tp tones parity stop
    exact ⟨u, pushed, feedSlots_append ht hu, by simpa using hend⟩
  · obtain ⟨t, ht, tp, -, -, tpushed⟩ := decoderStep_registers s true
    rw [hp, decoderFunction_start] at tp tpushed
    obtain ⟨u, hu⟩ := feedSlots_of_early (s := t)
      (bs := (List.range 8).map (fun k => v.getLsbD k) ++ [parity, stop]) (by rw [tp]; simp)
    refine ⟨u, [], ?_, by simp⟩
    rw [List.cons_append, feedSlots_cons ht hu, tpushed]
    rfl

/-- Settles O54: the frame's slots one after the other; `par` is the parity bit that makes the number of ones odd. -/
theorem frameIsAcceptedExactlyIfValid : Obligations.FrameIsAcceptedExactlyIfValid := by
  intro s hp hacc hones
  refine ⟨fun s0 v parity stop => feedSlots_frame hp hacc hones s0 v parity stop, fun v => ?_⟩
  obtain ⟨t, pushed, ht, hframe⟩ := feedSlots_frame hp hacc hones false v (par v) true
  rw [if_pos ⟨rfl, popcount_add_par_odd v, rfl⟩] at hframe
  obtain ⟨rfl, -⟩ := hframe
  exact ⟨t, ht⟩

end Sys2Proof.Machine

/-! ## Proofs: the clock crossing (42_fifo_async.md R165 to R167, R175, R176, R178)

Each side of the FIFO measures the other by a list of pointers: the other side's pointer itself and what the synchroniser's stages
hold of it, the later the older. `Lags` says that such a list is in order and that no distance exceeds DEPTH; `Lags.shift` is the
one argument why a pointer that moves on and a synchroniser that shifts it in, old or new, keep the list so. Which of the two sides
a joint reset has reached is followed by `Tracked`. -/

namespace Sys2Proof.Machine

/-! ### Lists of pointers in order of age -/

/-- The distances `f` of a list of pointers are ordered by `R` and none exceeds `bound`. -/
def Lags (R : Nat → Nat → Prop) (f : Nat → Nat) (bound : Nat) (xs : List Nat) : Prop :=
  (xs.map f).Pairwise R ∧ ∀ d ∈ xs.map f, d ≤ bound

section
variable {R : Nat → Nat → Prop} {f : Nat → Nat} {bound x y : Nat} {q q' xs ys : List Nat}

theorem Lags.sublist (h : Lags R f bound xs) (hs : ys.Sublist xs) : Lags R f bound ys := by
  obtain ⟨hord, hle⟩ := h
  exact ⟨hord.sublist (hs.map f), fun d hd => hle d ((hs.map f).subset hd)⟩

/-- A pointer ahead of the newest may stand before it. -/
theorem Lags.cons [IsTrans Nat R] (h : Lags R f bound (x :: q)) (hyx : R (f y) (f x)) (hy : f y ≤ bound) :
    Lags R f bound (y :: x :: q) := by
  obtain ⟨hord, hle⟩ := h
  obtain ⟨hx, -⟩ := List.pairwise_cons.1 hord
  refine ⟨List.pairwise_cons.2 ⟨fun d hd => ?_, hord⟩, List.forall_mem_cons.2 ⟨hy, hle⟩⟩
  rcases List.mem_cons.1 hd with rfl | hd
  · exact hyx
  · exact IsTrans.trans _ _ _ hyx (hx d hd)

/-- A pointer moves from `x` to `y` while its synchroniser stays, shifts in `x`, or shifts in `y`: the list stays in order. -/
theorem Lags.shift [Std.Refl R] [IsTrans Nat R] (h : Lags R f bound (x :: q)) (hyx : R (f y) (f x)) (hy : f y ≤ bound)
    (hq : q' = q ∨ q' = shiftIn x q ∨ q' = shiftIn y q) : Lags R f bound (y :: q') := by
  have hyxq := h.cons hyx hy
  rcases hq with rfl | rfl | rfl
  · exact hyxq.sublist ((List.sublist_cons_self x q').cons_cons y)
  · exact hyxq.sublist ((List.dropLast_sublist _).cons_cons y)
  · have hyq := hyxq.sublist ((List.sublist_cons_self x q).cons_cons y)
    exact (hyq.cons (refl_of R _) hy).sublist ((List.dropLast_sublist _).cons_cons y)

/-- The distances change, but not their order. -/
theorem Lags.congr {g : Nat → Nat} (h : Lags R f bound xs)
    (hord : ∀ a ∈ xs, ∀ b ∈ xs, R (f a) (f b) → R (g a) (g b)) (hle : ∀ a ∈ xs, g a ≤ bound) : Lags R g bound xs := by
  obtain ⟨hpair, -⟩ := h
  refine ⟨List.pairwise_map.2 ((List.pairwise_map.1 hpair).imp_of_mem fun ha hb => hord _ ha _ hb), fun d hd => ?_⟩
  obtain ⟨a, ha, rfl⟩ := List.mem_map.1 hd
  exact hle a ha

/-- Every distance stands in order with the last, the oldest pointer's. -/
theorem Lags.rel_last [Std.Refl R] {f : Nat → Nat} {u : Nat → Nat} (h : Lags R f bound (x :: q.map u)) (hq : q ≠ [])
    {a : Nat} (ha : a ∈ x :: q.map u) : R (f a) (f (u (lastStage q))) := by
  obtain ⟨hord, -⟩ := h
  have hlast : (List.map f (x :: q.map u)).getLast (by simp) = f (u (lastStage q)) := by
    obtain ⟨q, z, rfl⟩ := (List.eq_nil_or_concat q).resolve_left hq
    simp [lastStage]
  exact hlast ▸ hord.rel_getLast (List.mem_map_of_mem ha)

end

/-! ### The lags of a state -/

/-- What the write side counts from the read pointer and from each stage of `rq`, in order and at most DEPTH. -/
abbrev State.WriteLags (s : State) : Prop :=
  Lags (· ≤ ·) (ptrDiff s.cfg.depth s.wbin) s.cfg.depth (s.rbin :: s.rq.map (ungray s.cfg.depth))

/-- What the read side counts from the write pointer and from each stage of `wq`, in order and at most DEPTH. -/
abbrev State.ReadLags (s : State) : Prop :=
  Lags (· ≥ ·) (fun w => ptrDiff s.cfg.depth w s.rbin) s.cfg.depth (s.wbin :: s.wq.map (ungray s.cfg.depth))

theorem lagInv_iff {s : State} : s.LagInv ↔ s.WriteLags ∧ s.ReadLags := and_assoc.symm

/-- The pointers a side measures are in range. -/
theorem mem_lags_lt {depth x a : Nat} {q : List Nat} (hx : x < ptrMod depth) (ha : a ∈ x :: q.map (ungray depth)) :
    a < ptrMod depth := by
  rcases List.mem_cons.1 ha with rfl | ha
  · exact hx
  · obtain ⟨g, -, rfl⟩ := List.mem_map.1 ha
    exact ungray_lt depth g

/-- The write side counts at least what is there (R176), and at least what any stage of its synchroniser says. -/
theorem lag_le_countW {s : State} (h : s.WriteLags) (hq : s.rq ≠ []) {a : Nat}
    (ha : a ∈ s.rbin :: s.rq.map (ungray s.cfg.depth)) : ptrDiff s.cfg.depth s.wbin a ≤ s.countW :=
  h.rel_last hq ha

/-- The read side counts at most what is there (R176), and at most what any stage of its synchroniser says. -/
theorem countR_le_lag {s : State} (h : s.ReadLags) (hq : s.wq ≠ []) {a : Nat}
    (ha : a ∈ s.wbin :: s.wq.map (ungray s.cfg.depth)) : s.countR ≤ ptrDiff s.cfg.depth a s.rbin :=
  h.rel_last hq ha

/-- A legal build's synchronisers have stages. -/
theorem synchronisers_ne_nil {s : State} (hc : LegalConfig s.cfg) (ha : s.cfg.async = true) (hp : s.PointerInv) :
    s.rq ≠ [] ∧ s.wq ≠ [] := by
  obtain ⟨-, hasync⟩ := hc
  obtain ⟨-, -, hstages⟩ := hasync ha
  obtain ⟨-, -, -, -, hrq, hwq, -⟩ := hp
  exact ⟨List.ne_nil_of_length_pos (by omega), List.ne_nil_of_length_pos (by omega)⟩

/-- Settles O52: each side's count is the last of its lags. -/
theorem eachSidesViewIsConservative : Obligations.EachSidesViewIsConservative := by
  intro s hc ha hinv hw hr occupancy
  obtain ⟨-, -, -, -, hsettled⟩ := hinv
  obtain ⟨hp, hl⟩ := hsettled hw hr
  obtain ⟨hrq, hwq⟩ := synchronisers_ne_nil hc ha hp
  have hle := countW_le_depth hc ha hp hl
  obtain ⟨hwlags, hrlags⟩ := lagInv_iff.1 hl
  have hocc : occupancy ≤ s.countW := lag_le_countW hwlags hrq List.mem_cons_self
  exact ⟨hocc, countR_le_lag hrlags hwq List.mem_cons_self, hocc.trans hle, hle⟩

/-! ### The moves of a domain -/

/-- The write domain has moved: the pointer advanced, if the byte was accepted, and the synchroniser stayed or shifted in the read
pointer, old or new. -/
structure WriteMoves (s t : State) (accOk : Bool) : Prop where
  room : accOk = true → s.fullW = false
  wbin : t.wbin = if accOk then (s.wbin + 1) % ptrMod s.cfg.depth else s.wbin
  wgray : t.wgray = if accOk then gray ((s.wbin + 1) % ptrMod s.cfg.depth) else s.wgray
  rq : t.rq = s.rq ∨ t.rq = shiftIn s.rgray s.rq ∨ t.rq = shiftIn t.rgray s.rq
  storage : ∀ a, t.memRead a = if accOk = true ∧ a = s.writeIndex then s.nextPush.getD 0 else s.memRead a
  prod : ∃ (drop : Bool) (v : Byte),
    t.sig.prod = if accOk then .accept (s.nextPush.getD 0) else if drop then .drop v else .none
  dec : accOk = true → t.sig.dec = .frameOk (s.nextPush.getD 0)

/-- The read domain has moved: the pointer advanced, on a hit, and the synchroniser stayed or shifted in the write pointer, old or
new. -/
structure ReadMoves (s t : State) (hit : Bool) : Prop where
  byte : hit = true → s.emptyR = false
  rbin : t.rbin = if hit then (s.rbin + 1) % ptrMod s.cfg.depth else s.rbin
  rgray : t.rgray = if hit then gray ((s.rbin + 1) % ptrMod s.cfg.depth) else s.rgray
  wq : t.wq = s.wq ∨ t.wq = shiftIn s.wgray s.wq ∨ t.wq = shiftIn t.wgray s.wq
  cons : ∃ miss : Bool, t.sig.cons = if hit then .hit (s.memRead s.readIndex) else if miss then .miss else .none

/-- A write domain that keeps its registers has moved nowhere. -/
theorem writeMoves_of_keeps {s t : State} (hside : KeepsWriteSide s t) (hmem : t.mem = s.mem)
    (hprod : t.sig.prod = .none) : WriteMoves s t false := by
  obtain ⟨hwbin, hwgray, hrq⟩ := hside
  exact
    { room := fun h => nomatch h
      wbin := hwbin
      wgray := hwgray
      rq := .inl hrq
      storage := fun a => by simp [State.memRead_congr hmem]
      prod := ⟨false, 0, hprod⟩
      dec := fun h => nomatch h }

theorem readMoves_of_keeps {s t : State} (hside : KeepsReadSide s t) (hcons : t.sig.cons = .none) :
    ReadMoves s t false := by
  obtain ⟨hrbin, hrgray, hwq⟩ := hside
  exact
    { byte := fun h => nomatch h
      rbin := hrbin
      rgray := hrgray
      wq := .inl hwq
      cons := ⟨false, hcons⟩ }

/-- A turn of the write domain is a move, if a reset edge finds it in reset already. -/
theorem WriteTurn.moves {s t : State} (h : WriteTurn s t) (hcfg : t.cfg = s.cfg)
    (hreset : (risesClk s.nextInput.edge && s.nextInput.rst) = true → s.WriteSideReset) :
    ∃ accOk, WriteMoves s t accOk := by
  cases h with
  | hold _ _ _ hmem hside hprod => exact ⟨false, writeMoves_of_keeps hside hmem hprod⟩
  | reset he hr _ _ _ hmem hside hprod =>
    obtain ⟨hwbin, hwgray, hrq⟩ := hreset (by rw [he, hr]; rfl)
    obtain ⟨twbin, twgray, trq⟩ := hside
    rw [hcfg] at trq
    exact ⟨false, writeMoves_of_keeps ⟨twbin.trans hwbin.symm, twgray.trans hwgray.symm, trq.trans hrq.symm⟩ hmem hprod⟩
  | run _ _ hrun hrq =>
    have hpush (ho : s.nextAccept = true) : s.nextPush = some (s.nextPush.getD 0) := by
      obtain ⟨v, hv⟩ := Option.isSome_iff_exists.1 (Bool.and_eq_true_iff.1 ho).1
      rw [hv, Option.getD_some]
    refine ⟨s.nextAccept, ?_⟩
    exact
      { room := fun ho => by simpa using (Bool.and_eq_true_iff.1 ho).2
        wbin := hrun.wbin
        wgray := hrun.wgray
        rq := .inr hrq
        storage := fun a => by
          cases ho : s.nextAccept
          · simp [State.memRead_congr (by simpa [ho] using hrun.mem)]
          · simpa using State.memRead_of_write (by simpa [ho] using hrun.mem) a
        prod := ⟨_, _, hrun.prod⟩
        dec := fun ho => (hrun.frameOk _).2 (hpush ho) }

/-- A turn of the read domain is a move, if a reset edge finds it in reset already. -/
theorem ReadTurn.moves {s t : State} (h : ReadTurn s t) (hcfg : t.cfg = s.cfg)
    (hreset : (risesClkR s.nextInput.edge && s.nextInput.rstR) = true → s.ReadSideReset) : ∃ hit, ReadMoves s t hit := by
  cases h with
  | hold _ hside _ hcons => exact ⟨false, readMoves_of_keeps hside hcons⟩
  | reset he hr hside _ hcons =>
    obtain ⟨hrbin, hrgray, hwq⟩ := hreset (by rw [he, hr]; rfl)
    obtain ⟨trbin, trgray, twq⟩ := hside
    rw [hcfg] at twq
    exact ⟨false, readMoves_of_keeps ⟨trbin.trans hrbin.symm, trgray.trans hrgray.symm, twq.trans hwq.symm⟩ hcons⟩
  | run _ _ hrun hwq =>
    refine ⟨s.nextDeliver, ?_⟩
    exact
      { byte := fun hd => by simpa using (Bool.and_eq_true_iff.1 hd).2
        rbin := hrun.rbin
        rgray := hrun.rgray
        wq := .inr hwq
        cons := ⟨_, hrun.cons⟩ }

/-! ### Moves keep the pointers and their lags legal -/

/-- A pointer that advances or stays is in range, and its gray register follows it. -/
theorem pointer_moves {depth b b' g g' : Nat} {moves : Bool} (hb : b < ptrMod depth) (hg : g = gray b)
    (hb' : b' = if moves then (b + 1) % ptrMod depth else b)
    (hg' : g' = if moves then gray ((b + 1) % ptrMod depth) else g) : b' < ptrMod depth ∧ g' = gray b' := by
  subst hb' hg' hg
  cases moves
  · exact ⟨hb, rfl⟩
  · exact ⟨Nat.mod_lt _ (ptrMod_pos depth), rfl⟩

/-- A synchroniser that stays or shifts in a code keeps its length, and its stages are codes in range. -/
theorem synchroniser_moves {depth x y n : Nat} {q q' : List Nat} (hx : x < ptrMod depth) (hy : y < ptrMod depth)
    (hq : q' = q ∨ q' = shiftIn x q ∨ q' = shiftIn y q) (hlen : q.length = n) (hlt : ∀ g ∈ q, g < ptrMod depth) :
    q'.length = n ∧ ∀ g ∈ q', g < ptrMod depth := by
  have hshift {z : Nat} (hz : z < ptrMod depth) : (shiftIn z q).length = n ∧ ∀ g ∈ shiftIn z q, g < ptrMod depth := by
    refine ⟨(length_shiftIn z q).trans hlen, fun g hg => ?_⟩
    rcases mem_shiftIn hg with rfl | hg
    · exact hz
    · exact hlt g hg
  rcases hq with rfl | rfl | rfl
  · exact ⟨hlen, hlt⟩
  · exact hshift hx
  · exact hshift hy

/-- The stages of a synchroniser as pointers: shifting in a code shifts in its pointer. -/
theorem map_ungray_shiftIn {depth b : Nat} (hb : b < ptrMod depth) (q : List Nat) :
    (shiftIn (gray b) q).map (ungray depth) = shiftIn b (q.map (ungray depth)) := by
  rw [shiftIn, List.map_dropLast, List.map_cons, ungray_gray hb, shiftIn]

theorem map_ungray_moves {depth b b' : Nat} {q q' : List Nat} (hb : b < ptrMod depth) (hb' : b' < ptrMod depth)
    (hq : q' = q ∨ q' = shiftIn (gray b) q ∨ q' = shiftIn (gray b') q) :
    q'.map (ungray depth) = q.map (ungray depth) ∨ q'.map (ungray depth) = shiftIn b (q.map (ungray depth)) ∨
      q'.map (ungray depth) = shiftIn b' (q.map (ungray depth)) := by
  rw [← map_ungray_shiftIn hb, ← map_ungray_shiftIn hb']
  rcases hq with rfl | rfl | rfl
  · exact .inl rfl
  · exact .inr (.inl rfl)
  · exact .inr (.inr rfl)

section
variable {s t : State} {accOk hit : Bool} (hc : LegalConfig s.cfg) (ha : s.cfg.async = true) (hp : s.PointerInv)
  (hl : s.LagInv) (hw : WriteMoves s t accOk) (hr : ReadMoves s t hit) (hcfg : t.cfg = s.cfg)
include hc ha hp hl

include hw in
/-- An accepted byte leaves room on every count of the write side, so all its counts rise by one. -/
theorem WriteMoves.lag_advance {a : Nat} (ham : a ∈ s.rbin :: s.rq.map (ungray s.cfg.depth)) :
    ptrDiff s.cfg.depth t.wbin a = ptrDiff s.cfg.depth s.wbin a + accOk.toNat ∧
      ptrDiff s.cfg.depth s.wbin a + accOk.toNat ≤ s.cfg.depth := by
  obtain ⟨hrq, -⟩ := synchronisers_ne_nil hc ha hp
  obtain ⟨hwlags, -⟩ := lagInv_iff.1 hl
  have hle := lag_le_countW hwlags hrq ham
  have hcount := countW_le_depth hc ha hp hl
  have hmod := ptrMod_legal hc ha
  obtain ⟨hwbin, hrbin, -⟩ := hp
  rw [hw.wbin]
  cases ho : accOk
  · exact ⟨rfl, hle.trans hcount⟩
  · have hroom := fullW_eq_false_iff.1 (hw.room ho)
    simp only [Bool.toNat_true, if_true]
    exact ⟨ptrDiff_advance_left hwbin (mem_lags_lt hrbin ham) (by omega), by omega⟩

include hr in
/-- A hit takes a byte on every count of the read side, so all its counts fall by one. -/
theorem ReadMoves.lag_advance {a : Nat} (ham : a ∈ s.wbin :: s.wq.map (ungray s.cfg.depth)) :
    ptrDiff s.cfg.depth a t.rbin + hit.toNat = ptrDiff s.cfg.depth a s.rbin := by
  obtain ⟨-, hwq⟩ := synchronisers_ne_nil hc ha hp
  obtain ⟨-, hrlags⟩ := lagInv_iff.1 hl
  have hle := countR_le_lag hrlags hwq ham
  obtain ⟨hwbin, hrbin, -⟩ := hp
  rw [hr.rbin]
  cases hh : hit
  · rfl
  · have hbyte := emptyR_eq_false_iff.1 (hr.byte hh)
    exact ptrDiff_advance_right (mem_lags_lt hwbin ham) hrbin (by omega)

include hw hr in
/-- The number of bytes held changes by the accepted byte and the hit (R176). -/
theorem occupancy_moves :
    ptrDiff s.cfg.depth t.wbin t.rbin + hit.toNat = ptrDiff s.cfg.depth s.wbin s.rbin + accOk.toNat ∧
      ptrDiff s.cfg.depth s.wbin s.rbin + accOk.toNat ≤ s.cfg.depth := by
  obtain ⟨hwlag, hle⟩ := hw.lag_advance hc ha hp hl List.mem_cons_self
  have hrlag := hr.lag_advance hc ha hp hl List.mem_cons_self
  obtain ⟨hwbin, hrbin, hwgray, -⟩ := hp
  obtain ⟨hwbin', -⟩ := pointer_moves hwbin hwgray hw.wbin hw.wgray
  refine ⟨?_, hle⟩
  rw [← hwlag, hr.rbin]
  cases hh : hit
  · rfl
  · rw [hh] at hrlag
    exact ptrDiff_advance_right hwbin' hrbin (by rw [hwlag]; simp only [Bool.toNat_true] at hrlag; omega)

omit hc ha hl in
include hw hr hcfg in
theorem pointerInv_moves : t.PointerInv := by
  obtain ⟨hwbin, hrbin, hwgray, hrgray, hrqlen, hwqlen, hrq, hwq⟩ := hp
  obtain ⟨twbin, twgray⟩ := pointer_moves hwbin hwgray hw.wbin hw.wgray
  obtain ⟨trbin, trgray⟩ := pointer_moves hrbin hrgray hr.rbin hr.rgray
  obtain ⟨trqlen, trq⟩ :=
    synchroniser_moves (hrgray ▸ gray_lt hrbin) (trgray ▸ gray_lt trbin) hw.rq hrqlen hrq
  obtain ⟨twqlen, twq⟩ :=
    synchroniser_moves (hwgray ▸ gray_lt hwbin) (twgray ▸ gray_lt twbin) hr.wq hwqlen hwq
  unfold State.PointerInv
  rw [hcfg]
  exact ⟨twbin, trbin, twgray, trgray, trqlen, twqlen, trq, twq⟩

include hw hr hcfg in
theorem lagInv_moves : t.LagInv := by
  have hwlag {a : Nat} (h : a ∈ s.rbin :: s.rq.map (ungray s.cfg.depth)) := hw.lag_advance hc ha hp hl h
  have hrlag {a : Nat} (h : a ∈ s.wbin :: s.wq.map (ungray s.cfg.depth)) := hr.lag_advance hc ha hp hl h
  obtain ⟨hocc, hbound⟩ := occupancy_moves hc ha hp hl hw hr
  obtain ⟨hwocc, -⟩ := hwlag List.mem_cons_self
  have hrocc := hrlag List.mem_cons_self
  obtain ⟨hwlags, hrlags⟩ := lagInv_iff.1 hl
  obtain ⟨hwbin, hrbin, hwgray, hrgray, -⟩ := hp
  obtain ⟨twbin, twgray⟩ := pointer_moves hwbin hwgray hw.wbin hw.wgray
  obtain ⟨trbin, trgray⟩ := pointer_moves hrbin hrgray hr.rbin hr.rgray
  refine lagInv_iff.2 ⟨?_, ?_⟩
  · have hmoved : Lags (· ≤ ·) (ptrDiff s.cfg.depth t.wbin) s.cfg.depth (s.rbin :: s.rq.map (ungray s.cfg.depth)) := by
      refine hwlags.congr (fun a hma b hmb hab => ?_) fun a hma => ?_
      · obtain ⟨hlaga, -⟩ := hwlag hma
        obtain ⟨hlagb, -⟩ := hwlag hmb
        omega
      · obtain ⟨hlaga, hle⟩ := hwlag hma
        omega
    unfold State.WriteLags
    rw [hcfg]
    refine hmoved.shift (by omega) (by omega) (map_ungray_moves hrbin trbin ?_)
    rw [← hrgray, ← trgray]
    exact hw.rq
  · have hmoved : Lags (· ≥ ·) (fun w => ptrDiff s.cfg.depth w t.rbin) s.cfg.depth
        (s.wbin :: s.wq.map (ungray s.cfg.depth)) := by
      refine hrlags.congr (fun a hma b hmb hab => ?_) fun a hma => ?_
      · have hlaga := hrlag hma
        have hlagb := hrlag hmb
        omega
      · have hlaga := hrlag hma
        obtain ⟨-, hle⟩ := hrlags
        have := hle _ (List.mem_map_of_mem hma)
        omega
    unfold State.ReadLags
    rw [hcfg]
    refine hmoved.shift (by omega) (by omega) (map_ungray_moves hwbin twbin ?_)
    rw [← hwgray, ← twgray]
    exact hr.wq

end

/-! ### Both sides reset -/

/-- A list of pointers that are all 0 measured from 0. -/
theorem lags_of_zeros {R : Nat → Nat → Prop} [Std.Refl R] {f : Nat → Nat} (hf : f 0 = 0) (bound : Nat) {xs : List Nat}
    (h : ∀ a ∈ xs, a = 0) : Lags R f bound xs := by
  rw [List.eq_replicate_of_mem h, Lags, List.map_replicate, hf]
  exact ⟨List.pairwise_replicate.2 (.inr (refl_of R 0)), fun d hd => by simp [List.eq_of_mem_replicate hd]⟩

/-- With both sides at their reset values the pointers and their lags are legal. -/
theorem crossing_of_sidesReset {s : State} (hw : s.WriteSideReset) (hr : s.ReadSideReset) : s.PointerInv ∧ s.LagInv := by
  obtain ⟨hwbin, hwgray, hrq⟩ := hw
  obtain ⟨hrbin, hrgray, hwq⟩ := hr
  have hpos := ptrMod_pos s.cfg.depth
  have hgray : gray 0 = 0 := rfl
  have hself : ptrDiff s.cfg.depth 0 0 = 0 := ptrDiff_self hpos
  have hzeros : ∀ a ∈ 0 :: (List.replicate s.cfg.syncStages 0).map (ungray s.cfg.depth), a = 0 := by
    simp [ungray_zero]
  refine ⟨?_, lagInv_iff.2 ⟨?_, ?_⟩⟩
  · simp +contextual [State.PointerInv, hwbin, hwgray, hrq, hrbin, hrgray, hwq, hgray, hpos]
  · rw [State.WriteLags, hwbin, hrbin, hrq]
    exact lags_of_zeros (R := (· ≤ ·)) hself _ hzeros
  · rw [State.ReadLags, hwbin, hrbin, hwq]
    exact lags_of_zeros (R := (· ≥ ·)) (f := fun w => ptrDiff s.cfg.depth w 0) hself _ hzeros

/-- Settles O37: the registers of the reset state are all 0, and its storage is empty. -/
theorem resetMeetsTheInvariants : Obligations.ResetMeetsTheInvariants := by
  intro c hc
  obtain ⟨hdepth, -⟩ := id hc
  have hwside : (State.resetWith c).WriteSideReset := ⟨rfl, rfl, rfl⟩
  have hrside : (State.resetWith c).ReadSideReset := ⟨rfl, rfl, rfl⟩
  refine ⟨hc, legalDecoder_idle, ⟨Memory.wf_reset c, (fun _ h => nomatch h)⟩, fun _ => ?_, fun _ => ?_⟩
  · exact ⟨hdepth, hdepth, Nat.zero_le _, (Nat.zero_mod _).symm⟩
  · exact ⟨fun _ => hwside, fun _ => hrside, (fun h => nomatch h), (fun h => nomatch h),
      fun _ _ => crossing_of_sidesReset hwside hrside⟩

/-! ### Where the domains stand in a joint reset (R178; log entry 9) -/

/-- What an edge makes of where a domain stands, `own` before it and `own'` after it: by whether it takes a reset edge, runs, or
holds while the other domain takes a reset edge. -/
inductive Tracked (stages : Nat) (own other own' : DomainReset) (resets otherResets : Bool) : Prop where
  | hold (hresets : resets = false)
      (h : own' = if own = .running ∧ other = .running ∧ otherResets = true then .pending else own)
  | reset (hresets : resets = true) (h : InReset own')
  | run (hresets : resets = false) (h : own' = .running) (may : MayRun stages own other otherResets)

/-- A domain that may run finds neither domain waiting to join a reset, and the other, if it is reset at this edge, in reset. -/
theorem MayRun.settled {stages : Nat} {own other : DomainReset} {otherResets : Bool}
    (h : MayRun stages own other otherResets) :
    own ≠ .pending ∧ other ≠ .pending ∧ (otherResets = true → InReset other) := by
  obtain ⟨hown, hother, hresets⟩ := h
  refine ⟨?_, hother, hresets⟩
  rcases hown with rfl | ⟨n, rfl, -⟩ <;> simp

section
variable {stages : Nat} {own own' other other' : DomainReset} {resets otherResets : Bool}

/-- A domain that waits after an edge waits for a reset the other domain is in. -/
theorem Tracked.pending (h : Tracked stages own other own' resets otherResets)
    (h' : Tracked stages other own other' otherResets resets) (hown : own = .pending → InReset other)
    (hp : own' = .pending) : InReset other' := by
  cases h with
  | reset _ hin => exact absurd hp hin.2
  | run _ hrunning => simp [hrunning] at hp
  | hold hresets hheld =>
    subst hresets
    rw [hheld] at hp
    split at hp
    case isTrue hjoins =>
      obtain ⟨rfl, rfl, rfl⟩ := hjoins
      cases h' with
      | hold hno => cases hno
      | reset _ hin => exact hin
      | run hno => cases hno
    case isFalse =>
      obtain ⟨hrunning, -⟩ := hown hp
      cases h' with
      | hold _ hheld' =>
        rw [hheld', if_neg fun hjoins => hrunning hjoins.1]
        exact hown hp
      | reset _ hin => exact hin
      | run _ _ may =>
        obtain ⟨-, hno, -⟩ := may.settled
        exact absurd hp hno

/-- A domain reset at an edge at which the other holds and does not begin to wait: the other is in reset, or this one was. -/
theorem settled_of_reset_hold (hin : InReset own') (hresets : resets = true) (hown : own = .pending → InReset other)
    (hheld : other' = if other = .running ∧ own = .running ∧ resets = true then .pending else other)
    (hp' : other' ≠ .pending) :
    (InReset own' ∧ InReset other') ∨ (own ≠ .pending ∧ other ≠ .pending ∧ InReset own) := by
  have hjoins : ¬ (other = .running ∧ own = .running ∧ resets = true) := fun hjoins => hp' (hheld.trans (if_pos hjoins))
  obtain rfl : other' = other := hheld.trans (if_neg hjoins)
  by_cases hrunning : other' = .running
  · have hown' : own ≠ .pending := fun hpending => (hown hpending).1 hrunning
    exact .inr ⟨hown', hp', fun h => hjoins ⟨hrunning, h, hresets⟩, hown'⟩
  · exact .inl ⟨hin, hrunning, hp'⟩

/-- Unless a domain waits after an edge, either both are in reset, or neither waited before it and each one reset at it was in reset
already. -/
theorem Tracked.settled (h : Tracked stages own other own' resets otherResets)
    (h' : Tracked stages other own other' otherResets resets) (hown : own = .pending → InReset other)
    (hother : other = .pending → InReset own) (hp : own' ≠ .pending) (hp' : other' ≠ .pending) :
    (InReset own' ∧ InReset other') ∨
      (own ≠ .pending ∧ other ≠ .pending ∧ (resets = true → InReset own) ∧ (otherResets = true → InReset other)) := by
  cases h with
  | run hresets _ may =>
    obtain ⟨hown, hother, hin⟩ := may.settled
    exact .inr ⟨hown, hother, by simp [hresets], hin⟩
  | reset hresets hin =>
    cases h' with
    | run hresets' _ may =>
      obtain ⟨hother, hown, hin⟩ := may.settled
      exact .inr ⟨hown, hother, hin, by simp [hresets']⟩
    | reset _ hin' => exact .inl ⟨hin, hin'⟩
    | hold hresets' hheld =>
      refine (settled_of_reset_hold hin hresets hown hheld hp').imp_right fun ⟨hown, hother, hin⟩ => ?_
      exact ⟨hown, hother, fun _ => hin, by simp [hresets']⟩
  | hold hresets hheld =>
    cases h' with
    | run hresets' _ may =>
      obtain ⟨hother, hown, hin⟩ := may.settled
      exact .inr ⟨hown, hother, hin, by simp [hresets']⟩
    | reset hresets' hin' =>
      refine (settled_of_reset_hold hin' hresets' hother hheld hp).imp And.symm fun ⟨hother, hown, hin⟩ => ?_
      exact ⟨hown, hother, by simp [hresets], fun _ => hin⟩
    | hold hresets' hheld' =>
      obtain rfl : own' = own := hheld.trans (if_neg (by simp [hresets']))
      obtain rfl : other' = other := hheld'.trans (if_neg (by simp [hresets]))
      exact .inr ⟨hp, hp', by simp [hresets], by simp [hresets']⟩

end

/-- A domain's own track at an edge, from its clock, its reset, and R178's leave to run. -/
theorem tracked_of_edge {stages : Nat} {own other : DomainReset} {rises rst otherResets : Bool}
    (hmay : rises = true → rst = false → MayRun stages own other otherResets) :
    Tracked stages own other (resetAfter own other (rises && rst) (rises && !rst) otherResets) (rises && rst)
      otherResets := by
  obtain ⟨hresets, hruns, hholds⟩ := resetAfter_edge own other rises rst otherResets
  cases hrises : rises
  case false => exact .hold rfl (hrises ▸ hholds hrises)
  case true =>
    cases hrst : rst
    case false => exact .run rfl rfl (hmay hrises hrst)
    case true =>
      refine .reset rfl ?_
      cases own <;> exact ⟨nofun, nofun⟩

/-- The tracks of both domains in a step of ASYNC = 1. -/
theorem asyncStep_tracked {s t : State} (ha : s.cfg.async = true) (h : step s = .next t) :
    Tracked s.cfg.syncStages s.wReset s.rReset t.wReset (risesClk s.nextInput.edge && s.nextInput.rst)
        (risesClkR s.nextInput.edge && s.nextInput.rstR) ∧
      Tracked s.cfg.syncStages s.rReset s.wReset t.rReset (risesClkR s.nextInput.edge && s.nextInput.rstR)
        (risesClk s.nextInput.edge && s.nextInput.rst) := by
  obtain ⟨hrefusal, hw, hr, -⟩ := asyncStep_edge ha h
  obtain ⟨hmayW, hmayR⟩ := sample_resetRefusal_eq_none.1 hrefusal
  rw [hw, hr]
  exact ⟨tracked_of_edge hmayW, tracked_of_edge hmayR⟩

/-! ### A step of ASYNC = 1 -/

/-- Unless a joint reset has reached one domain alone, a step moves both sides. -/
theorem asyncStep_moves {s t : State} (ha : s.cfg.async = true) (hi : s.AsyncInv) (h : step s = .next t)
    (hw : (risesClk s.nextInput.edge && s.nextInput.rst) = true → InReset s.wReset)
    (hr : (risesClkR s.nextInput.edge && s.nextInput.rstR) = true → InReset s.rReset) :
    (∃ accOk, WriteMoves s t accOk) ∧ ∃ hit, ReadMoves s t hit := by
  obtain ⟨-, -, -, hwrite, hread, -⟩ := asyncStep_edge ha h
  obtain ⟨hwside, hrside, -⟩ := hi
  have hcfg := step_cfg h
  exact ⟨hwrite.moves hcfg fun he => hwside (hw he), hread.moves hcfg fun he => hrside (hr he)⟩

/-- A domain that holds at an edge and is in reset after it was in reset. -/
theorem inReset_of_hold {own other own' : DomainReset} {otherResets : Bool}
    (h : own' = if own = .running ∧ other = .running ∧ otherResets = true then .pending else own)
    (hin : InReset own') : InReset own := by
  split at h
  · exact absurd h hin.2
  · exact h ▸ hin

/-- A write domain in reset after an edge holds its reset values. -/
theorem writeSideReset_of_inReset {s t : State} (ha : s.cfg.async = true) (hi : InReset s.wReset → s.WriteSideReset)
    (h : step s = .next t) (hin : InReset t.wReset) : t.WriteSideReset := by
  obtain ⟨-, htrack, -, hwrite, -⟩ := asyncStep_edge ha h
  obtain ⟨-, hruns, hholds⟩ := resetAfter_edge s.wReset s.rReset (risesClk s.nextInput.edge) s.nextInput.rst
    s.sample.readResets
  cases hwrite with
  | hold he _ _ _ hside _ =>
    obtain ⟨hwbin, hwgray, hrq⟩ := hi (inReset_of_hold (htrack.trans (hholds he)) hin)
    obtain ⟨twbin, twgray, trq⟩ := hside
    exact ⟨twbin.trans hwbin, twgray.trans hwgray, by rw [trq, hrq, step_cfg h]⟩
  | reset _ _ _ _ _ _ hside _ => exact hside
  | run he hr => exact absurd (htrack.trans (hruns he hr)) hin.1

/-- A read domain in reset after an edge holds its reset values. -/
theorem readSideReset_of_inReset {s t : State} (ha : s.cfg.async = true) (hi : InReset s.rReset → s.ReadSideReset)
    (h : step s = .next t) (hin : InReset t.rReset) : t.ReadSideReset := by
  obtain ⟨-, -, htrack, -, hread, -⟩ := asyncStep_edge ha h
  obtain ⟨-, hruns, hholds⟩ := resetAfter_edge s.rReset s.wReset (risesClkR s.nextInput.edge) s.nextInput.rstR
    s.sample.writeResets
  cases hread with
  | hold he hside _ _ =>
    obtain ⟨hrbin, hrgray, hwq⟩ := hi (inReset_of_hold (htrack.trans (hholds he)) hin)
    obtain ⟨trbin, trgray, twq⟩ := hside
    exact ⟨trbin.trans hrbin, trgray.trans hrgray, by rw [twq, hwq, step_cfg h]⟩
  | reset _ _ hside _ _ => exact hside
  | run he hr => exact absurd (htrack.trans (hruns he hr)) hin.1

/-- Settles O36: where no domain waits after the edge, both sides are reset, or both have moved from a legal crossing. -/
theorem stepKeepsTheCrossingInvariants : Obligations.StepKeepsTheCrossingInvariants := by
  intro s t hc ha hi h
  obtain ⟨hwtracked, hrtracked⟩ := asyncStep_tracked ha h
  obtain ⟨hwreset, hrreset, hwp, hrp, hsettled⟩ := id hi
  have hwside := writeSideReset_of_inReset ha hwreset h
  have hrside := readSideReset_of_inReset ha hrreset h
  refine ⟨hwside, hrside, hwtracked.pending hrtracked hwp, hrtracked.pending hwtracked hrp, fun hw hr => ?_⟩
  rcases hwtracked.settled hrtracked hwp hrp hw hr with ⟨hw', hr'⟩ | ⟨hw', hr', hwin, hrin⟩
  · exact crossing_of_sidesReset (hwside hw') (hrside hr')
  · obtain ⟨hp, hl⟩ := hsettled hw' hr'
    obtain ⟨⟨accOk, hwmoves⟩, hit, hrmoves⟩ := asyncStep_moves ha hi h hwin hrin
    have hcfg := step_cfg h
    exact ⟨pointerInv_moves hp hwmoves hrmoves hcfg, lagInv_moves hc ha hp hl hwmoves hrmoves hcfg⟩

/-! ### The bytes held (R57, R176) -/

theorem heldAsync_eq_ring (s : State) :
    s.heldAsync = ring s.memRead (2 ^ addrW s.cfg.depth) s.rbin (ptrDiff s.cfg.depth s.wbin s.rbin) := rfl

/-- The entry the write pointer names lies behind the bytes held. -/
theorem writeIndex_eq {s : State} (hp : s.PointerInv) :
    s.writeIndex = (s.rbin + ptrDiff s.cfg.depth s.wbin s.rbin) % 2 ^ addrW s.cfg.depth := by
  obtain ⟨hwbin, hrbin, -⟩ := hp
  rw [State.writeIndex, ptrDiff_eq hwbin hrbin, ptrMod_eq]
  split
  · rw [Nat.add_sub_cancel' ‹_›]
  · rw [Nat.add_sub_cancel' (by rw [ptrMod_eq] at hrbin; omega), Nat.add_mul_mod_self_right]

/-- A pointer that advances or stays, as its place among the entries. -/
theorem pointer_index (depth b : Nat) (moves : Bool) :
    (if moves then (b + 1) % ptrMod depth else b) % 2 ^ addrW depth = (b + moves.toNat) % 2 ^ addrW depth := by
  cases moves
  · rfl
  · exact Nat.mod_mod_of_dvd _ ⟨2, by rw [ptrMod_eq, Nat.mul_comm]⟩

/-- Moves of both sides make of the bytes held what the outcomes say. -/
theorem heldAsync_moves {s t : State} {accOk hit : Bool} (hc : LegalConfig s.cfg) (ha : s.cfg.async = true)
    (hp : s.PointerInv) (hl : s.LagInv) (hw : WriteMoves s t accOk) (hr : ReadMoves s t hit) (hcfg : t.cfg = s.cfg) :
    t.heldAsync = queueAfter s.heldAsync t.sig.cons t.sig.prod := by
  obtain ⟨hocc, hbound⟩ := occupancy_moves hc ha hp hl hw hr
  have hsize : 2 ^ addrW s.cfg.depth = s.cfg.depth := by
    have := ptrMod_legal hc ha
    rw [ptrMod_eq] at this
    omega
  have hrlag := hr.lag_advance hc ha hp hl List.mem_cons_self
  obtain ⟨drop, w, hprod⟩ := hw.prod
  obtain ⟨miss, hcons⟩ := hr.cons
  rw [hprod, hcons, queueAfter_of_bits, heldAsync_eq_ring, heldAsync_eq_ring, hcfg]
  refine ring_step (fun hh => ?_) (fun ho => ?_) ?_ hocc fun x => ?_
  · simp only [hh, Bool.toNat_true] at hrlag
    omega
  · simp only [ho, Bool.toNat_true] at hbound
    omega
  · rw [hr.rbin, pointer_index]
  · rw [hw.storage, writeIndex_eq hp]

/-- Where some domain runs, no domain waited, and one reset at the same edge was in reset already. -/
theorem asyncStep_settled {s t : State} (ha : s.cfg.async = true) (h : step s = .next t)
    (hruns : (risesClk s.nextInput.edge = true ∧ s.nextInput.rst = false) ∨
      (risesClkR s.nextInput.edge = true ∧ s.nextInput.rstR = false)) :
    s.wReset ≠ .pending ∧ s.rReset ≠ .pending ∧
      ((risesClk s.nextInput.edge && s.nextInput.rst) = true → InReset s.wReset) ∧
      ((risesClkR s.nextInput.edge && s.nextInput.rstR) = true → InReset s.rReset) := by
  obtain ⟨hrefusal, -⟩ := asyncStep_edge ha h
  obtain ⟨hmayW, hmayR⟩ := sample_resetRefusal_eq_none.1 hrefusal
  rcases hruns with ⟨he, hr⟩ | ⟨he, hr⟩
  · obtain ⟨hw, hr', hin⟩ := (hmayW he hr).settled
    exact ⟨hw, hr', by simp [hr], hin⟩
  · obtain ⟨hr', hw, hin⟩ := (hmayR he hr).settled
    exact ⟨hw, hr', hin, by simp [hr]⟩

/-- Settles O51: the bytes held are a window of the storage's ring, and each outcome says what its bit did to it. -/
theorem asyncFifoIsABoundedQueue : Obligations.AsyncFifoIsABoundedQueue := by
  intro s t hc ha hi hruns h
  obtain ⟨hw, hr, hwin, hrin⟩ := asyncStep_settled ha h hruns
  obtain ⟨⟨accOk, hwmoves⟩, hit, hrmoves⟩ := asyncStep_moves ha hi h hwin hrin
  obtain ⟨-, -, -, -, -, r, htrace, hshows⟩ := asyncStep_edge ha h
  obtain ⟨-, -, -, -, hsettled⟩ := hi
  obtain ⟨hp, hl⟩ := hsettled hw hr
  have hcfg := step_cfg h
  obtain ⟨hocc, hbound⟩ := occupancy_moves hc ha hp hl hwmoves hrmoves
  refine ⟨r, htrace, ?_, ?_, fun v hv => ?_, fun v hv => ?_⟩
  · rw [hshows.cons, hshows.prod]
    exact heldAsync_moves hc ha hp hl hwmoves hrmoves hcfg
  · rw [heldAsync_eq_ring, length_ring, hcfg]
    omega
  · have hrlag := hrmoves.lag_advance hc ha hp hl List.mem_cons_self
    obtain ⟨miss, hcons⟩ := hrmoves.cons
    rw [hshows.cons, hcons] at hv
    cases hh : hit <;> rw [hh] at hv hrlag
    · cases miss <;> cases hv
    · cases hv
      simp only [Bool.toNat_true] at hrlag
      rw [heldAsync_eq_ring, head?_ring _ _ _ (by omega)]
      rfl
  · obtain ⟨drop, w, hprod⟩ := hwmoves.prod
    have hdec := hwmoves.dec
    rw [hshows.prod, hprod] at hv
    cases ho : accOk <;> rw [ho] at hv hbound hdec
    · cases drop <;> cases hv
    · cases hv
      refine ⟨?_, hshows.dec.trans (hdec rfl)⟩
      simp only [Bool.toNat_true] at hbound
      rw [heldAsync_eq_ring, length_ring]
      omega

end Sys2Proof.Machine

/-! ## Proofs: a write pointer at rest crosses (42_fifo_async.md R165, R175, R179)

At an edge of `clk_r` alone the write domain holds and its gray code is shifted in, so after as many such edges as the synchroniser
has stages every stage holds it. -/

namespace Sys2Proof.Machine

/-- The first `k` stages of a synchroniser hold `x`. -/
def Settled (k x : Nat) (q : List Nat) : Prop := ∀ i, i < k → i < q.length → q[i]? = some x

theorem Settled.shiftIn {k x : Nat} {q : List Nat} (h : Settled k x q) : Settled (k + 1) x (shiftIn x q) := by
  intro i hi hlen
  rw [length_shiftIn] at hlen
  cases i with
  | zero => exact getElem?_shiftIn_zero x hlen
  | succ i => rw [getElem?_shiftIn_succ x hlen, h i (by omega) (by omega)]

/-- Where every stage holds `x`, so does the last. -/
theorem Settled.lastStage {x : Nat} {q : List Nat} (h : Settled q.length x q) (hq : q ≠ []) : lastStage q = x := by
  have hpos : 0 < q.length := List.length_pos_iff.2 hq
  have hlast : q.getLast? = some x := by
    rw [List.getLast?_eq_getElem?]
    exact h _ (by omega) (by omega)
  rw [Machine.lastStage, List.getLastD_eq_getLast?, hlast, Option.getD_some]

/-- A step of ASYNC = 1 uses up a listed cycle. -/
theorem asyncStep_uses_cycle {s t : State} {i : PortIn} {rest : List Pending} (ha : s.cfg.async = true)
    (hin : s.inputs = .cycle i :: rest) (h : step s = .next t) : t.inputs = rest := by
  obtain ⟨-, u, v, w, ⟨-, -, urest, -⟩, hread, hwrite, rfl⟩ := asyncStep_cases ha h
  obtain ⟨-, -, vrest⟩ := readTurn_keepsWriteDomain hread
  obtain ⟨wrest, -⟩ := writeTurn_countsDrop hwrite
  obtain ⟨-, -, -, hinputs, -⟩ := keepsRest_trans urest (keepsRest_trans vrest wrest)
  have hcycle : w.inputs = .cycle i :: rest := hinputs.trans hin
  simp [State.remaining, hcycle]

/-- An edge of `clk_r` alone that the read domain takes without reset and may: it answers, the write pointer rests, its gray code is
shifted in, and the read domain may run at the next. -/
theorem readEdge_shifts {s : State} (hc : LegalConfig s.cfg) (ha : s.cfg.async = true)
    (hmay : MayRun s.cfg.syncStages s.rReset s.wReset false) (he : s.nextInput.edge = .clkR)
    (hr : s.nextInput.rstR = false) :
    ∃ t, step s = .next t ∧ t.wbin = s.wbin ∧ t.wgray = s.wgray ∧ t.wq = shiftIn s.wgray s.wq ∧
      MayRun t.cfg.syncStages t.rReset t.wReset false := by
  have hclk : risesClk s.nextInput.edge = false := by rw [he]; rfl
  have hclkR : risesClkR s.nextInput.edge = true := by rw [he]; rfl
  have hrefusal : s.sample.resetRefusal = none := by
    rw [sample_resetRefusal_eq_none, hclk]
    exact ⟨fun h => (nomatch h), fun _ _ => hmay⟩
  obtain ⟨t, ht⟩ := asyncStep_goes hc ha hrefusal
  obtain ⟨-, hw', hr', hwrite, hread, -⟩ := asyncStep_edge ha ht
  have hkeeps : KeepsWriteSide s t := by
    cases hwrite with
    | hold _ _ _ _ hside _ => exact hside
    | reset he' => exact absurd (hclk.symm.trans he') (by decide)
    | run he' => exact absurd (hclk.symm.trans he') (by decide)
  obtain ⟨hwbin, hwgray, -⟩ := hkeeps
  refine ⟨t, ht, hwbin, hwgray, ?_, .inl ?_, ?_, fun h => (nomatch h)⟩
  · cases hread with
    | hold he' => exact absurd (he'.symm.trans hclkR) (by decide)
    | reset _ hr' => exact absurd (hr.symm.trans hr') (by decide)
    | run _ _ _ hwq => simpa [hwgray] using hwq
  · obtain ⟨-, hruns, -⟩ := resetAfter_edge s.rReset s.wReset (risesClkR s.nextInput.edge) s.nextInput.rstR
      s.sample.writeResets
    exact hr'.trans (hruns hclkR hr)
  · obtain ⟨-, -, hholds⟩ := resetAfter_edge s.wReset s.rReset (risesClk s.nextInput.edge) s.nextInput.rst
      s.sample.readResets
    obtain ⟨-, hother, -⟩ := hmay
    have hresets : s.sample.readResets = false := (readResets_sample hclkR).trans hr
    rw [hw'.trans (hholds hclk), if_neg (by simp [hresets])]
    exact hother

/-- A run of such edges shifts the resting write pointer's code in as often. -/
theorem run_readEdges {edges : List PortIn} {rest : List Pending} {s : State} {k : Nat} (hc : LegalConfig s.cfg)
    (ha : s.cfg.async = true) (hmay : MayRun s.cfg.syncStages s.rReset s.wReset false)
    (hedges : ∀ i ∈ edges, i.rstR = false ∧ i.edge = .clkR) (hin : s.inputs = edges.map .cycle ++ rest)
    (hsettled : Settled k s.wgray s.wq) :
    ∃ t : State, Host.Core.run Sys2Proof.core edges.length s = .next t ∧ t.cfg = s.cfg ∧ t.wbin = s.wbin ∧
      t.wq.length = s.wq.length ∧ Settled (k + edges.length) s.wgray t.wq := by
  induction edges generalizing s k with
  | nil => exact ⟨s, rfl, rfl, rfl, rfl, hsettled⟩
  | cons i edges ih =>
    obtain ⟨⟨hr, he⟩, hedges⟩ := List.forall_mem_cons.1 hedges
    have hnext : s.nextInput = i := nextInput_of_cycle hin
    obtain ⟨u, hu, uwbin, uwgray, uwq, umay⟩ := readEdge_shifts hc ha hmay (hnext ▸ he) (hnext ▸ hr)
    have ucfg := step_cfg hu
    have hshifted : Settled (k + 1) u.wgray u.wq := by
      rw [uwgray, uwq]
      exact hsettled.shiftIn
    obtain ⟨t, ht, tcfg, twbin, tlen, tsettled⟩ :=
      ih (ucfg ▸ hc) (ucfg ▸ ha) umay hedges (asyncStep_uses_cycle ha hin hu) hshifted
    refine ⟨t, ?_, tcfg.trans ucfg, twbin.trans uwbin, ?_, ?_⟩
    · refine (run_succ edges.length s).trans ?_
      rw [hu]
      exact ht
    · rw [tlen, uwq, length_shiftIn]
    · rw [List.length_cons, ← uwgray, Nat.add_comm edges.length, ← Nat.add_assoc]
      exact tsettled

/-- Settles O60: after SYNC_STAGES edges every stage, and so the last, holds the write pointer's code. -/
theorem settledWritePointerIsSeen : Obligations.SettledWritePointerIsSeen := by
  intro s edges rest hc ha hp hmay hlen hedges hin
  obtain ⟨-, hwq⟩ := synchronisers_ne_nil hc ha hp
  obtain ⟨hwbin, -, hwgray, -, -, hwqlen, -⟩ := hp
  obtain ⟨t, ht, tcfg, twbin, tlen, tsettled⟩ :=
    run_readEdges hc ha hmay hedges hin (k := 0) fun i hi => absurd hi (Nat.not_lt_zero i)
  have hlength : t.wq.length = 0 + edges.length := by omega
  have hnil : t.wq ≠ [] := by rwa [← List.length_pos_iff, tlen, List.length_pos_iff]
  rw [← hlength] at tsettled
  have hseen : t.wseen = s.wbin := by rw [State.wseen, tsettled.lastStage hnil, tcfg, hwgray, ungray_gray hwbin]
  exact ⟨t, hlen ▸ ht, hseen, twbin⟩

end Sys2Proof.Machine
